-- ==== Sys2Proof/Word.lean ====
section
/-!
DEFINITION. The word types of the machine: bytes, 12-bit addresses, 16-bit instruction words, 4-bit
register numbers and the 9-bit coordinates of the Display port (rules R7, R11, R41 of the spec).
All values are unsigned (rule R12).
-/

namespace Sys2Proof

/-- A byte: the contents of a register `V[i]`, of a timer, of a memory cell (rules R20, R28, R60). -/
abbrev Byte := BitVec 8

/-- A memory address, 12 bits (rule R60); `I`, `PC` and the stack entries hold values of this
width (rules R23, R24, R26), so that arithmetic on them is modulo 4096 (rule R62). -/
abbrev Addr := BitVec 12

/-- An instruction word, 16 bits (rule R80). -/
abbrev Word := BitVec 16

/-- A general register number, the 4-bit field `x` or `y` (rules R20, R81). -/
abbrev RegIdx := BitVec 4

/-- A coordinate on the Display port, 9 bits (rule R41). -/
abbrev Coord := BitVec 9

end Sys2Proof
end

