-- ==== Sys2Proof/Syntax.lean ====
section
/-!
DEFINITION. The 34 instructions of the opcode map (rule R86), one constructor per row, in the table's order,
with the operands of their formats (rule R82). Every field of the word an instruction names is kept,
the unused `y` of the shifts too (rule R91).
-/

namespace Sys2Proof

/-- The instructions (rule R86). `x`, `y`: register numbers; `kk`: immediate byte; `nnn`: address;
`n`: row count (rules R81, R83). -/
inductive Instr where
  /-- `00E0` clear (R160). -/
  | clear
  /-- `00EE` return (R101). -/
  | ret
  /-- `1nnn` jump (R102). -/
  | jump (nnn : Addr)
  /-- `2nnn` call (R103). -/
  | call (nnn : Addr)
  /-- `3xkk` skip-eq-imm (R104). -/
  | skipEqImm (x : RegIdx) (kk : Byte)
  /-- `4xkk` skip-ne-imm (R105). -/
  | skipNeImm (x : RegIdx) (kk : Byte)
  /-- `5xy0` skip-eq-reg (R106). -/
  | skipEqReg (x y : RegIdx)
  /-- `6xkk` load-imm (R121). -/
  | loadImm (x : RegIdx) (kk : Byte)
  /-- `7xkk` add-imm (R122). -/
  | addImm (x : RegIdx) (kk : Byte)
  /-- `8xy0` move (R123). -/
  | move (x y : RegIdx)
  /-- `8xy1` or (R124). -/
  | orReg (x y : RegIdx)
  /-- `8xy2` and (R125). -/
  | andReg (x y : RegIdx)
  /-- `8xy3` xor (R126). -/
  | xorReg (x y : RegIdx)
  /-- `8xy4` add (R127). -/
  | addReg (x y : RegIdx)
  /-- `8xy5` sub (R128). -/
  | subReg (x y : RegIdx)
  /-- `8xy6` shr (R129). -/
  | shr (x y : RegIdx)
  /-- `8xy7` subn (R130). -/
  | subnReg (x y : RegIdx)
  /-- `8xyE` shl (R131). -/
  | shl (x y : RegIdx)
  /-- `9xy0` skip-ne-reg (R107). -/
  | skipNeReg (x y : RegIdx)
  /-- `Annn` load-index (R140). -/
  | loadIndex (nnn : Addr)
  /-- `Bnnn` jump-offset (R108). -/
  | jumpOffset (nnn : Addr)
  /-- `Cxkk` random (R132). -/
  | random (x : RegIdx) (kk : Byte)
  /-- `Dxyn` draw (R161). -/
  | draw (x y : RegIdx) (n : BitVec 4)
  /-- `Ex9E` skip-key-pressed (R170). -/
  | skipKeyPressed (x : RegIdx)
  /-- `ExA1` skip-key-not-pressed (R171). -/
  | skipKeyNotPressed (x : RegIdx)
  /-- `Fx07` read-delay (R172). -/
  | readDelay (x : RegIdx)
  /-- `Fx0A` wait-key (R173). -/
  | waitKey (x : RegIdx)
  /-- `Fx15` set-delay (R174). -/
  | setDelay (x : RegIdx)
  /-- `Fx18` set-sound (R175). -/
  | setSound (x : RegIdx)
  /-- `Fx1E` add-index (R141). -/
  | addIndex (x : RegIdx)
  /-- `Fx29` font-char (R142). -/
  | fontChar (x : RegIdx)
  /-- `Fx33` bcd (R143). -/
  | bcd (x : RegIdx)
  /-- `Fx55` store-regs (R144). -/
  | storeRegs (x : RegIdx)
  /-- `Fx65` load-regs (R145). -/
  | loadRegs (x : RegIdx)
deriving DecidableEq, Repr

end Sys2Proof
end

