-- ==== Sys2Proof/WellFormed.lean ====
section
/-!
DEFINITION. Well-formedness of an instruction: each operand lies in the range of its field (rules R81, R83).
The operand types have exactly these ranges, so every term of `Instr` is well formed and an ill-formed
one cannot be written; the checks are stated on numbers, and `Tests/Slice0.lean` shows each of
them refusing the first number beyond its range.
-/

namespace Sys2Proof

/-- A register number fits its 4-bit field (rule R81). -/
def regFits (n : Nat) : Bool := decide (n < 16)

/-- An immediate fits the 8-bit field `kk` (rule R83). -/
def byteFits (n : Nat) : Bool := decide (n < 256)

/-- An address fits the 12-bit field `nnn` (rule R83). -/
def addrFits (n : Nat) : Bool := decide (n < 4096)

/-- A row count fits the 4-bit field `n` (rule R83). -/
def rowsFit (n : Nat) : Bool := decide (n < 16)

/-- Every operand of the instruction lies in its field's range. No value of an operand is refused
beyond that, the unused `y` of the shifts included (rule R91). -/
def Instr.wellFormed (i : Instr) : Bool :=
  match i with
  | .clear | .ret => true
  | .jump nnn | .call nnn | .loadIndex nnn | .jumpOffset nnn => addrFits nnn.toNat
  | .skipEqImm x kk | .skipNeImm x kk | .loadImm x kk | .addImm x kk | .random x kk =>
      regFits x.toNat && byteFits kk.toNat
  | .skipEqReg x y | .skipNeReg x y | .move x y | .orReg x y | .andReg x y | .xorReg x y
  | .addReg x y | .subReg x y | .shr x y | .subnReg x y | .shl x y =>
      regFits x.toNat && regFits y.toNat
  | .draw x y n => regFits x.toNat && regFits y.toNat && rowsFit n.toNat
  | .skipKeyPressed x | .skipKeyNotPressed x | .readDelay x | .waitKey x | .setDelay x
  | .setSound x | .addIndex x | .fontChar x | .bcd x | .storeRegs x | .loadRegs x =>
      regFits x.toNat

end Sys2Proof
end

