-- ==== Sys2Proof/Decode.lean ====
section
/-!
DEFINITION. Decoding (rule R85), total on all words and on any bytes; the opcode map of rule R86 as data;
the encoder, written from the formats of rule R82; and the table's own numbering of an instruction's bits.
-/

namespace Sys2Proof

/-- Why bytes are no instruction. -/
inductive DecodeError where
  /-- Fewer than the two bytes every instruction has (rule R80). -/
  | truncated
  /-- The word matches no row of the opcode map (rule R88). -/
  | unknownOpcode (w : Word)
deriving DecidableEq, Repr

/-! ### Fields (rules R14, R81) -/

/-- `op = w[15:12]`, the opcode family. -/
def Word.op (w : Word) : BitVec 4 := w.extractLsb' 12 4
/-- `x = w[11:8]`. -/
def Word.x (w : Word) : RegIdx := w.extractLsb' 8 4
/-- `y = w[7:4]`. -/
def Word.y (w : Word) : RegIdx := w.extractLsb' 4 4
/-- `n = w[3:0]`. -/
def Word.n (w : Word) : BitVec 4 := w.extractLsb' 0 4
/-- `kk = w[7:0]`. -/
def Word.kk (w : Word) : Byte := w.extractLsb' 0 8
/-- `nnn = w[11:0]`. -/
def Word.nnn (w : Word) : Addr := w.extractLsb' 0 12

/-! ### The decoder (rule R85; strict, D1, log 9) -/

/-- Family `0x0`: the two exact words. -/
def decodeFamily0 (w : Word) : Option Instr :=
  if w = 0x00E0#16 then some .clear else if w = 0x00EE#16 then some .ret else none

/-- Family `0x8`: secondary dispatch on the low nibble. -/
def decodeFamily8 (x y n : BitVec 4) : Option Instr :=
  match n.toNat with
  | 0 => some (.move x y)
  | 1 => some (.orReg x y)
  | 2 => some (.andReg x y)
  | 3 => some (.xorReg x y)
  | 4 => some (.addReg x y)
  | 5 => some (.subReg x y)
  | 6 => some (.shr x y)
  | 7 => some (.subnReg x y)
  | 14 => some (.shl x y)
  | _ => none

/-- Family `0xE`: secondary dispatch on the low byte. -/
def decodeFamilyE (x : RegIdx) (kk : Byte) : Option Instr :=
  if kk = 0x9E#8 then some (.skipKeyPressed x)
  else if kk = 0xA1#8 then some (.skipKeyNotPressed x)
  else none

/-- Family `0xF`: secondary dispatch on the low byte. -/
def decodeFamilyF (x : RegIdx) (kk : Byte) : Option Instr :=
  if kk = 0x07#8 then some (.readDelay x)
  else if kk = 0x0A#8 then some (.waitKey x)
  else if kk = 0x15#8 then some (.setDelay x)
  else if kk = 0x18#8 then some (.setSound x)
  else if kk = 0x1E#8 then some (.addIndex x)
  else if kk = 0x29#8 then some (.fontChar x)
  else if kk = 0x33#8 then some (.bcd x)
  else if kk = 0x55#8 then some (.storeRegs x)
  else if kk = 0x65#8 then some (.loadRegs x)
  else none

/-- `decode(w)` of rule R85: one of the 34 instructions, or none where the word is illegal. -/
def decodeWord (w : Word) : Option Instr :=
  match (Word.op w).toNat with
  | 0x0 => decodeFamily0 w
  | 0x1 => some (.jump (Word.nnn w))
  | 0x2 => some (.call (Word.nnn w))
  | 0x3 => some (.skipEqImm (Word.x w) (Word.kk w))
  | 0x4 => some (.skipNeImm (Word.x w) (Word.kk w))
  | 0x5 => if Word.n w = 0#4 then some (.skipEqReg (Word.x w) (Word.y w)) else none
  | 0x6 => some (.loadImm (Word.x w) (Word.kk w))
  | 0x7 => some (.addImm (Word.x w) (Word.kk w))
  | 0x8 => decodeFamily8 (Word.x w) (Word.y w) (Word.n w)
  | 0x9 => if Word.n w = 0#4 then some (.skipNeReg (Word.x w) (Word.y w)) else none
  | 0xA => some (.loadIndex (Word.nnn w))
  | 0xB => some (.jumpOffset (Word.nnn w))
  | 0xC => some (.random (Word.x w) (Word.kk w))
  | 0xD => some (.draw (Word.x w) (Word.y w) (Word.n w))
  | 0xE => decodeFamilyE (Word.x w) (Word.kk w)
  | _ => decodeFamilyF (Word.x w) (Word.kk w)

/-- The word two bytes form, the byte at the lower address first (rule R63). -/
def wordOfBytes (hi lo : Byte) : Word := hi ++ lo

/-- The decoder on bytes, lowest address first: the first instruction and the bytes after it, or the
reason there is none. -/
def decode : List Byte → Except DecodeError (Instr × List Byte)
  | hi :: lo :: rest =>
    match decodeWord (wordOfBytes hi lo) with
    | some i => .ok (i, rest)
    | none => .error (.unknownOpcode (wordOfBytes hi lo))
  | _ => .error .truncated

/-! ### The encoder (formats of rule R82) -/

/-- Format `NNN`. -/
def encodeNNN (op : BitVec 4) (nnn : Addr) : Word := op ++ nnn
/-- Format `XKK`, and format `XFF` with the sub-opcode as `kk`. -/
def encodeXKK (op : BitVec 4) (x : RegIdx) (kk : Byte) : Word := op ++ x ++ kk
/-- Format `XYN`, and format `XYF` with the sub-opcode as `n`. -/
def encodeXYN (op : BitVec 4) (x y : RegIdx) (n : BitVec 4) : Word := op ++ x ++ y ++ n

/-- The word of an instruction (rules R82, R86). -/
def encode : Instr → Word
  | .clear => 0x00E0#16
  | .ret => 0x00EE#16
  | .jump nnn => encodeNNN 0x1#4 nnn
  | .call nnn => encodeNNN 0x2#4 nnn
  | .skipEqImm x kk => encodeXKK 0x3#4 x kk
  | .skipNeImm x kk => encodeXKK 0x4#4 x kk
  | .skipEqReg x y => encodeXYN 0x5#4 x y 0x0#4
  | .loadImm x kk => encodeXKK 0x6#4 x kk
  | .addImm x kk => encodeXKK 0x7#4 x kk
  | .move x y => encodeXYN 0x8#4 x y 0x0#4
  | .orReg x y => encodeXYN 0x8#4 x y 0x1#4
  | .andReg x y => encodeXYN 0x8#4 x y 0x2#4
  | .xorReg x y => encodeXYN 0x8#4 x y 0x3#4
  | .addReg x y => encodeXYN 0x8#4 x y 0x4#4
  | .subReg x y => encodeXYN 0x8#4 x y 0x5#4
  | .shr x y => encodeXYN 0x8#4 x y 0x6#4
  | .subnReg x y => encodeXYN 0x8#4 x y 0x7#4
  | .shl x y => encodeXYN 0x8#4 x y 0xE#4
  | .skipNeReg x y => encodeXYN 0x9#4 x y 0x0#4
  | .loadIndex nnn => encodeNNN 0xA#4 nnn
  | .jumpOffset nnn => encodeNNN 0xB#4 nnn
  | .random x kk => encodeXKK 0xC#4 x kk
  | .draw x y n => encodeXYN 0xD#4 x y n
  | .skipKeyPressed x => encodeXKK 0xE#4 x 0x9E#8
  | .skipKeyNotPressed x => encodeXKK 0xE#4 x 0xA1#8
  | .readDelay x => encodeXKK 0xF#4 x 0x07#8
  | .waitKey x => encodeXKK 0xF#4 x 0x0A#8
  | .setDelay x => encodeXKK 0xF#4 x 0x15#8
  | .setSound x => encodeXKK 0xF#4 x 0x18#8
  | .addIndex x => encodeXKK 0xF#4 x 0x1E#8
  | .fontChar x => encodeXKK 0xF#4 x 0x29#8
  | .bcd x => encodeXKK 0xF#4 x 0x33#8
  | .storeRegs x => encodeXKK 0xF#4 x 0x55#8
  | .loadRegs x => encodeXKK 0xF#4 x 0x65#8

/-- The high byte of a word, stored at the lower address (rule R63). -/
def Word.hi (w : Word) : Byte := w.extractLsb' 8 8
/-- The low byte of a word, stored at the higher address (rule R63). -/
def Word.lo (w : Word) : Byte := w.extractLsb' 0 8

/-- The bytes of an instruction as they lie in memory, lowest address first (rule R80). -/
def encodeBytes (i : Instr) : List Byte := [Word.hi (encode i), Word.lo (encode i)]

/-! ### The opcode map as data (rule R86) -/

/-- A row of the opcode map: a word `w` is the instruction exactly when `w &&& mask = pattern`. -/
structure OpRow where
  mnemonic : String
  mask : Word
  pattern : Word
deriving DecidableEq, Repr

/-- Rows of families `0x0` to `0x7`. -/
def opRows0to7 : List OpRow :=
  [⟨"clear", 0xFFFF#16, 0x00E0#16⟩, ⟨"return", 0xFFFF#16, 0x00EE#16⟩,
   ⟨"jump", 0xF000#16, 0x1000#16⟩, ⟨"call", 0xF000#16, 0x2000#16⟩,
   ⟨"skip-eq-imm", 0xF000#16, 0x3000#16⟩, ⟨"skip-ne-imm", 0xF000#16, 0x4000#16⟩,
   ⟨"skip-eq-reg", 0xF00F#16, 0x5000#16⟩, ⟨"load-imm", 0xF000#16, 0x6000#16⟩,
   ⟨"add-imm", 0xF000#16, 0x7000#16⟩]

/-- Rows of family `0x8`. -/
def opRows8 : List OpRow :=
  [⟨"move", 0xF00F#16, 0x8000#16⟩, ⟨"or", 0xF00F#16, 0x8001#16⟩,
   ⟨"and", 0xF00F#16, 0x8002#16⟩, ⟨"xor", 0xF00F#16, 0x8003#16⟩,
   ⟨"add", 0xF00F#16, 0x8004#16⟩, ⟨"sub", 0xF00F#16, 0x8005#16⟩,
   ⟨"shr", 0xF00F#16, 0x8006#16⟩, ⟨"subn", 0xF00F#16, 0x8007#16⟩,
   ⟨"shl", 0xF00F#16, 0x800E#16⟩]

/-- Rows of families `0x9` to `0xE`. -/
def opRows9toE : List OpRow :=
  [⟨"skip-ne-reg", 0xF00F#16, 0x9000#16⟩, ⟨"load-index", 0xF000#16, 0xA000#16⟩,
   ⟨"jump-offset", 0xF000#16, 0xB000#16⟩, ⟨"random", 0xF000#16, 0xC000#16⟩,
   ⟨"draw", 0xF000#16, 0xD000#16⟩, ⟨"skip-key-pressed", 0xF0FF#16, 0xE09E#16⟩,
   ⟨"skip-key-not-pressed", 0xF0FF#16, 0xE0A1#16⟩]

/-- Rows of family `0xF`. -/
def opRowsF : List OpRow :=
  [⟨"read-delay", 0xF0FF#16, 0xF007#16⟩, ⟨"wait-key", 0xF0FF#16, 0xF00A#16⟩,
   ⟨"set-delay", 0xF0FF#16, 0xF015#16⟩, ⟨"set-sound", 0xF0FF#16, 0xF018#16⟩,
   ⟨"add-index", 0xF0FF#16, 0xF01E#16⟩, ⟨"font-char", 0xF0FF#16, 0xF029#16⟩,
   ⟨"bcd", 0xF0FF#16, 0xF033#16⟩, ⟨"store-regs", 0xF0FF#16, 0xF055#16⟩,
   ⟨"load-regs", 0xF0FF#16, 0xF065#16⟩]

/-- The opcode map of rule R86. -/
def opRows : List OpRow := opRows0to7 ++ opRows8 ++ opRows9toE ++ opRowsF

/-- The word is the row's instruction (rule R86). -/
def OpRow.matchesWord (r : OpRow) (w : Word) : Bool := (w &&& r.mask) == r.pattern

/-- The word matches some row of the opcode map; every other word is illegal (rule R88). -/
def legalWord (w : Word) : Bool := opRows.any (fun r => r.matchesWord w)

/-- The mnemonic of the instruction's row (rules R86, R92). -/
def Instr.mnemonic : Instr → String
  | .clear => "clear"
  | .ret => "return"
  | .jump _ => "jump"
  | .call _ => "call"
  | .skipEqImm _ _ => "skip-eq-imm"
  | .skipNeImm _ _ => "skip-ne-imm"
  | .skipEqReg _ _ => "skip-eq-reg"
  | .loadImm _ _ => "load-imm"
  | .addImm _ _ => "add-imm"
  | .move _ _ => "move"
  | .orReg _ _ => "or"
  | .andReg _ _ => "and"
  | .xorReg _ _ => "xor"
  | .addReg _ _ => "add"
  | .subReg _ _ => "sub"
  | .shr _ _ => "shr"
  | .subnReg _ _ => "subn"
  | .shl _ _ => "shl"
  | .skipNeReg _ _ => "skip-ne-reg"
  | .loadIndex _ => "load-index"
  | .jumpOffset _ => "jump-offset"
  | .random _ _ => "random"
  | .draw _ _ _ => "draw"
  | .skipKeyPressed _ => "skip-key-pressed"
  | .skipKeyNotPressed _ => "skip-key-not-pressed"
  | .readDelay _ => "read-delay"
  | .waitKey _ => "wait-key"
  | .setDelay _ => "set-delay"
  | .setSound _ => "set-sound"
  | .addIndex _ => "add-index"
  | .fontChar _ => "font-char"
  | .bcd _ => "bcd"
  | .storeRegs _ => "store-regs"
  | .loadRegs _ => "load-regs"

/-! ### The opcode table's numbering of an instruction's bits -/

/-- The bytes, as they lie in memory, of the instruction whose bits are `w`, of which the table gives
the low `nbits`; the bits above are zero. -/
def tableBytes (nbits w : Nat) : List Byte :=
  [Word.hi (BitVec.ofNat 16 (w % 2 ^ nbits)), Word.lo (BitVec.ofNat 16 (w % 2 ^ nbits))]

/-- The instruction the decoder reads from an instruction whose bits are `w`. -/
def decodeTableWord (nbits w : Nat) : Option Instr :=
  match decode (tableBytes nbits w) with
  | .ok (i, _) => some i
  | .error _ => none

end Sys2Proof
end

