-- ==== Sys2Proof/Config.lean ====
section
/-!
DEFINITION. The parameters of the machine: the values the source fixes (rule R7), the parameters with
the defaults the spec gives them (rule R8), and the free values, which have no body and of which nothing
can be proved.
-/

namespace Sys2Proof.Config

/-- `MEM_SIZE`: bytes of memory (rule R7). -/
def memSize : Nat := 4096

/-- `STACK_DEPTH`: entries of the call stack (rules R7, R26). -/
def stackDepth : Nat := 16

/-- `PROGRAM_BASE`: load address of the program image and reset value of `PC` (rule R7). -/
def programBase : Addr := 0x200#12

/-- The longest image `loadImage` accepts, `4096 - 0x200` bytes (rule R71). -/
def maxImage : Nat := 3584

/-- The default of the parameter `FONT_BASE`. DESIGN CHOICE (log 5): the spec's (rule R8, D10). -/
def fontBase : Addr := 0x050#12

/-- Glyphs 0 to 3 of the default `FONT`. PRESUMED (log 6): the customary table. -/
def font0to3 : List Byte :=
  [0xF0, 0x90, 0x90, 0x90, 0xF0,  0x20, 0x60, 0x20, 0x20, 0x70,
   0xF0, 0x10, 0xF0, 0x80, 0xF0,  0xF0, 0x10, 0xF0, 0x10, 0xF0]

/-- Glyphs 4 to 7 of the default `FONT`. PRESUMED (log 6): the customary table. -/
def font4to7 : List Byte :=
  [0x90, 0x90, 0xF0, 0x10, 0x10,  0xF0, 0x80, 0xF0, 0x10, 0xF0,
   0xF0, 0x80, 0xF0, 0x90, 0xF0,  0xF0, 0x10, 0x20, 0x40, 0x40]

/-- Glyphs 8 to B of the default `FONT`. PRESUMED (log 6): the customary table. -/
def font8toB : List Byte :=
  [0xF0, 0x90, 0xF0, 0x90, 0xF0,  0xF0, 0x90, 0xF0, 0x10, 0xF0,
   0xF0, 0x90, 0xF0, 0x90, 0x90,  0xE0, 0x90, 0xE0, 0x90, 0xE0]

/-- Glyphs C to F of the default `FONT`. PRESUMED (log 6): the customary table. -/
def fontCtoF : List Byte :=
  [0xF0, 0x80, 0x80, 0x80, 0xF0,  0xE0, 0x90, 0x90, 0x90, 0xE0,
   0xF0, 0x80, 0xF0, 0x80, 0xF0,  0xF0, 0x80, 0xF0, 0x80, 0x80]

/-- The default of the parameter `FONT`: `FONT_GLYPHS * FONT_GLYPH_BYTES` bytes, digit 0 first (rules R7, R8,
R72). PRESUMED (log 6): the spec takes the bytes from general knowledge (U9). -/
def font : Vector Byte 80 := ⟨(font0to3 ++ font4to7 ++ font8toB ++ fontCtoF).toArray, rfl⟩

/-- `SPEED`, instruction steps per `cycle()` (rules R8, R205): the spec leaves it OPEN. A free value
(log 7): nothing constrains it. -/
opaque speed : Nat

/-- The answer of the RNG to a `RandByte()` request that no scripted answer serves (rule R220).
A free value (log 17), applied to the counter `Env.draws`. -/
opaque randByte : Nat → Byte

/-- The answer of the Input collaborator to a `KeyPressed(k)` query that no scripted answer serves
(rule R218), for every 8-bit `k` (D14). A free value (log 15), applied to the counter and to `k`. -/
opaque keyPressed : Nat → Byte → Bool

/-- Whether, and with which value, a key event comes at a boundary at which the core awaits a key and
nothing is scripted (rules R199, R206, R219). A free value (log 16), applied to the counter. -/
opaque keyEvent : Nat → Option Byte

/-- The pixel number a Display of the given width and height associates with a coordinate beyond its
bitmap, where its edge rule is not stated (rule R216, U7). A free value (log 13), applied to the width,
the height, `x` and `y`. -/
opaque edgePixel : Nat → Nat → Nat → Nat → Option Nat

end Sys2Proof.Config
end

