-- ==== Sys2Proof/Machine/State.lean ====
section
/-!
DEFINITION. The state of the machine as plain data (spec/10_state.md), the reasons a step can stop, and the
state after reset (rules R46, R230).
-/

namespace Sys2Proof.Machine

/-! ### Core state -/

/-- `MODE`, the execution state (rule R31). -/
inductive Mode where
  | running
  | awaitingKey
  | halted
deriving DecidableEq, Repr

/-- The cause of an instruction fault (rules R33, R190). -/
inductive FaultCause where
  | unknownOpcode
  | stackOverflow
  | stackUnderflow
deriving DecidableEq, Repr

/-- A fault record: the cause, the word that raised the fault, the address it was fetched from
(rule R33). -/
structure FaultRecord where
  cause : FaultCause
  word : Word
  addr : Addr
deriving DecidableEq, Repr

/-- Where the cycle-sequencing controller stands between two atomic units (rules R205, R206), and
what the host may ask for (rule R232). -/
inductive Phase where
  /-- After `initialize()`, before the first `cycle()`; `loaded` once an image has been accepted. -/
  | ready (loaded : Bool)
  /-- Between two `cycle()` requests. -/
  | idle
  /-- In the loop of `cycle()`, before a loop check; `left = SPEED - count` steps may still run
  (log 7). -/
  | loop (left : Nat)
  /-- After the failing loop check, before the tick check. -/
  | tick
  /-- Before the render request. -/
  | render
deriving DecidableEq, Repr

/-! ### Configuration (rule R36) -/

/-- `UNKNOWN_OPCODE_POLICY` (rules R8, R191). -/
inductive Policy where
  | halt
  | skip
deriving DecidableEq, Repr

/-- The font that reset lays into memory (rules R8, R72): parameters of the core. -/
structure FontSet where
  /-- `FONT_BASE`. -/
  base : Addr
  /-- `FONT`: 16 glyphs of 5 bytes, digit 0 first. -/
  bytes : Vector Byte 80
deriving DecidableEq, Repr

/-- The font lies in the reserved region: `FONT_BASE + 79 <= 0x1FF` (rule R8, D10). -/
abbrev FontSet.reserved (f : FontSet) : Prop := f.base.toNat + 79 ≤ 0x1FF

/-- The defaults the spec gives the font (rule R8; logs 5, 6). -/
def FontSet.default : FontSet := { base := Config.fontBase, bytes := Config.font }

/-- The open parameters of the core (rules R8, R36): the model takes them as arguments, held beside the
state so that a statement about every state is one about every value of them. No step changes them. -/
structure Params where
  /-- `SPEED`: instruction steps per `cycle()`. -/
  speed : Nat
  /-- `UNKNOWN_OPCODE_POLICY`. -/
  policy : Policy
  /-- `FONT_BASE` and `FONT`. -/
  fontSet : FontSet
deriving DecidableEq, Repr

/-! ### Collaborators and host, as the core sees them (rules R40 to R43) -/

/-- What the Display does with a coordinate beyond its bitmap (rule R216, D20). -/
inductive EdgeRule where
  /-- The reference Display: each coordinate modulo the size. -/
  | wrap
  /-- Not stated: the pixel, if any, is a free value (log 13). -/
  | unstated
deriving DecidableEq, Repr

/-- The Display: a monochrome bitmap (rule R215). `pixels` holds the numbers `y * width + x` of the pixels
that are on, strictly rising. -/
structure Display where
  width : Nat
  height : Nat
  edge : EdgeRule
  pixels : List Nat
deriving DecidableEq, Repr

/-- A request of the host (rules R40, R238). -/
inductive HostRequest where
  | initializeCore
  | loadImage (bytes : List Byte)
  | cycle
deriving DecidableEq, Repr

/-- The error answers of the host operations (rules R190, R210): no faults of the core. -/
inductive HostError where
  | imageTooLarge
deriving DecidableEq, Repr

/-- A transaction on a port of the core (rules R40 to R43). -/
inductive PortEvent where
  /-- `DispClear()`. -/
  | dispClear
  /-- `DispSetPixel(x, y)` and its answer. -/
  | dispSetPixel (x y : Coord) (collision : Bool)
  /-- `DispRender()`. -/
  | dispRender
  /-- `KeyPressed(k)` and its answer. -/
  | keyPressed (k : Byte) (down : Bool)
  /-- `ArmKeyWait()`. -/
  | armKeyWait
  /-- The inbound `KeyEvent(k)`. -/
  | keyEvent (k : Byte)
  /-- `RandByte()` and its answer. -/
  | randByte (r : Byte)
  /-- The answer `ok` to `loadImage`. -/
  | loadOk
  /-- The error answer to `loadImage` (rules R71, R210). -/
  | loadFailed (e : HostError)
  /-- The answer `done` to `cycle()`, with the `FAULT` record. -/
  | cycleDone (record : Option FaultRecord)
deriving DecidableEq, Repr

/-- The collaborators' side of the ports: answers and events to come, the Display, and the log of what
happened. Answers are taken from the scripted lists first; once a list is used up, they are the free
values of `Config` applied to `draws` (logs 15, 16, 17). -/
structure Env where
  /-- Host requests to come, oldest first; when there is none, the host issues `cycle()` (log 18). -/
  requests : List HostRequest
  /-- What happens at the coming boundaries (rule R206): a key event, or the core moves. -/
  turns : List (Option Byte)
  /-- Answers to the coming `KeyPressed` queries. -/
  keyAnswers : List Bool
  /-- Answers to the coming `RandByte` requests. -/
  randAnswers : List Byte
  /-- How many free values have been taken. -/
  draws : Nat
  /-- The Display. -/
  display : Display
  /-- Every transaction so far, oldest first (log 21). -/
  ports : List PortEvent
deriving DecidableEq, Repr

/-! ### The state -/

/-- Memory: (address, byte) cells. The canonical form and what an unlisted address reads as stand in
`Machine/Ops.lean`. -/
abbrev Memory := List Host.Cell

/-- The state of the machine (spec/10_state.md, section 1). -/
structure State where
  /-- `V[0..15]`, the general registers (rule R20); `VF` is `v[15]` (rule R21). -/
  v : Vector Byte 16
  /-- `I`, the index register (rule R23). -/
  i : Addr
  /-- `PC`, the program counter (rule R24). -/
  pc : Addr
  /-- `SP`, the number of return addresses on the call stack, 0 to 16 (rule R25). -/
  sp : Fin 17
  /-- `STACK[0..15]`, the call stack (rule R26). -/
  stack : Vector Addr 16
  /-- `DT`, the delay timer (rule R28). -/
  dt : Byte
  /-- `ST`, the sound timer (rule R29). -/
  st : Byte
  /-- `MODE`, the execution state (rule R31). -/
  mode : Mode
  /-- `WAIT_REG`, the register the awaited key goes to (rule R32). -/
  waitReg : RegIdx
  /-- `FAULT`, the fault record (rule R33). -/
  fault : Option FaultRecord
  /-- `MEM[0..4095]` (rule R34). -/
  mem : Memory
  /-- The cycle-sequencing controller (rules R35, R205). -/
  ctl : Phase
  /-- The open parameters (rule R36). -/
  cfg : Params
  /-- The collaborators and the host (rule R36). -/
  env : Env
deriving DecidableEq, Repr

/-- The reference Display, all pixels off (rule R216, D20). PRESUMED (log 13, unsafe): the size and the
edge rule are the spec's from general knowledge. -/
def Display.reference : Display := { width := 64, height := 32, edge := .wrap, pixels := [] }

/-- Collaborators of which nothing is scripted and with which nothing has happened. -/
def Env.quiet : Env :=
  { requests := [], turns := [], keyAnswers := [], randAnswers := [], draws := 0,
    display := .reference, ports := [] }

/-- The machine right after reset (rules R46, R230). DESIGN CHOICE (logs 3, 4, unsafe): every value but
`PC` is the spec's decision. `SPEED` is free (log 7); the policy and the font are the spec's defaults (logs 5, 6, 8). -/
def State.reset : State :=
  { v := Vector.replicate 16 0#8
    i := 0#12
    pc := Config.programBase
    sp := 0
    stack := Vector.replicate 16 0#12
    dt := 0#8
    st := 0#8
    mode := .running
    waitReg := 0#4
    fault := none
    mem := []
    ctl := .ready false
    cfg := { speed := Config.speed, policy := .halt, fontSet := .default }
    env := .quiet }

/-! ### How a step can stop -/

/-- Faults that stop the machine: none. The three instruction faults of rule R190 are states the
machine goes on from (rule R193: the record written, `MODE` Halted), so they are next states; no rule of
the spec describes a fault after which there is no state (log 12; safe: nothing is left out). -/
inductive Fault where
deriving DecidableEq, Repr

/-- Refusals. -/
inductive Refusal where
  /-- Raised by `exec` for an instruction that has no meaning yet; none is left, so no step
  answers it. Safe: the machine stops. -/
  | notModelled (mnemonic : String)
  /-- Raised by the host operation `loadImage` after the first `cycle()`, to which the spec gives no
  meaning (rules R71, R232, U17; log 19). Safe: the machine stops. -/
  | loadImageAfterCycle
  /-- Raised by the host operation `loadImage` when an image has been accepted since `initialize()`
  (U17; log 19). Safe: the machine stops. -/
  | loadImageTwice
deriving DecidableEq, Repr

end Sys2Proof.Machine
end

