-- ==== Sys2Proof/Machine/Ops.lean ====
section
/-!
DEFINITION. The operations the meanings are built from: memory, registers, the call stack, taking a fault,
the key event, the timer tick, reset and fetching.
-/

namespace Sys2Proof.Machine

/-! ### Memory (spec/20_memory.md) -/

/-- What an unlisted address reads as: the reset contents, `FONT` at `FONT_BASE` and zero elsewhere
(rules R46, R72, R230). DESIGN CHOICE (log 4, unsafe): the spec's decision D9. -/
def Memory.unlisted (f : FontSet) (a : Nat) : Byte :=
  if h : f.base.toNat ≤ a ∧ a < f.base.toNat + 80 then f.bytes[a - f.base.toNat]'(by omega) else 0#8

/-- The byte listed for an address, or what the address reads as unlisted. -/
def Memory.lookup (f : FontSet) : Memory → Nat → Byte
  | [], a => Memory.unlisted f a
  | c :: m, a => if c.1 = a then c.2 else Memory.lookup f m a

/-- Insert a cell before the first cell of a higher address. -/
def Memory.insertCell (c : Host.Cell) : Memory → Memory
  | [] => [c]
  | d :: m => if c.1 < d.1 then c :: d :: m else d :: Memory.insertCell c m

/-- Make `a` read as `b`, keeping the canonical form. -/
def Memory.store (m : Memory) (f : FontSet) (a : Nat) (b : Byte) : Memory :=
  if b = Memory.unlisted f a then m.filter (fun c => c.1 ≠ a)
  else Memory.insertCell (a, b) (m.filter (fun c => c.1 ≠ a))

/-- `MemRead(addr, 1)` (rule R61); an address of 12 bits is already reduced modulo 4096. -/
def Memory.read (m : Memory) (f : FontSet) (a : Addr) : Byte := Memory.lookup f m a.toNat

/-- `MemWrite(addr, 1, v)` (rule R61). -/
def Memory.write (m : Memory) (f : FontSet) (a : Addr) (b : Byte) : Memory := Memory.store m f a.toNat b

/-- Store bytes at consecutive addresses, in ascending order (rules R66, R71). -/
def Memory.writeBytes (m : Memory) (f : FontSet) (a : Addr) : List Byte → Memory
  | [] => m
  | b :: bs => Memory.writeBytes (m.write f a b) f (a + 1#12) bs

/-- The canonical form: addresses strictly rising and inside the address space (rule R60), no cell equal
to what its address reads as unlisted. -/
abbrev Memory.wf (m : Memory) (f : FontSet) : Prop :=
  m.Pairwise (fun c d => c.1 < d.1) ∧
    ∀ c ∈ m, c.1 < Config.memSize ∧ c.2 ≠ Memory.unlisted f c.1

/-! ### Registers (spec/10_state.md) -/

/-- Read `V[x]` (rule R13). -/
def State.reg (s : State) (x : RegIdx) : Byte := s.v[x.toNat]

/-- `V[x] <- b` (rule R13). -/
def State.setReg (s : State) (x : RegIdx) (b : Byte) : State :=
  { s with v := s.v.set x.toNat b x.isLt }

/-- The register number of `VF` (rules R13, R21). -/
def vF : RegIdx := 0xF#4

/-- `PC <- target` (rule R13). -/
def State.setPc (s : State) (a : Addr) : State := { s with pc := a }

/-- The decoder's advance, `PC <- (PC + 2) mod 4096` (rule R84); a taken skip does the same again
(rule R100). -/
def State.advance (s : State) : State := s.setPc (s.pc + 2#12)

/-- A skip: advance once more where the condition holds (rule R100). -/
def State.skipIf (s : State) (c : Bool) : State := if c then s.advance else s

/-- `I <- a` (rule R23). -/
def State.setIndex (s : State) (a : Addr) : State := { s with i := a }

/-- `DT <- b` (rule R28). -/
def State.setDelay (s : State) (b : Byte) : State := { s with dt := b }

/-- `ST <- b` (rule R29). -/
def State.setSound (s : State) (b : Byte) : State := { s with st := b }

/-- Read one byte of memory. -/
def State.readByte (s : State) (a : Addr) : Byte := s.mem.read s.cfg.fontSet a

/-- Write one byte of memory. -/
def State.writeByte (s : State) (a : Addr) (b : Byte) : State :=
  { s with mem := s.mem.write s.cfg.fontSet a b }

/-- Replace the collaborators' side of the ports. -/
def State.setEnv (s : State) (e : Env) : State := { s with env := e }

/-- Move the cycle controller. -/
def State.setCtl (s : State) (p : Phase) : State := { s with ctl := p }

/-! ### The call stack (rule R27) -/

/-- `push(a)` where the stack has room: `STACK[SP] <- a ; SP <- SP + 1`. -/
def State.push (s : State) (a : Addr) (room : s.sp.val < 16) : State :=
  { s with stack := s.stack.set s.sp.val a room, sp := ⟨s.sp.val + 1, by omega⟩ }

/-- `pop()` where the stack is not empty, the state: `SP <- SP - 1`. The entry is not erased. -/
def State.drop (s : State) : State :=
  { s with sp := ⟨s.sp.val - 1, by omega⟩ }

/-- `pop()` where the stack is not empty, the result: `STACK[SP - 1]`. -/
def State.top (s : State) (some : 0 < s.sp.val) : Addr :=
  s.stack[s.sp.val - 1]'(by omega)

/-! ### Taking a fault (rules R190 to R193, R209) -/

/-- The numeric code of a cause (rule R190, D6). -/
def FaultCause.code : FaultCause → Nat
  | .unknownOpcode => 1
  | .stackOverflow => 2
  | .stackUnderflow => 3

/-- The numeric code of a host operation's error answer (rule R190, D6): never recorded in `FAULT`. -/
def HostError.code : HostError → Nat
  | .imageTooLarge => 4

/-- `FAULT <- (cause, word, addr)` (rule R33). -/
def State.recordFault (s : State) (cause : FaultCause) (word : Word) (addr : Addr) : State :=
  { s with fault := some { cause, word, addr } }

/-- The fault sequence (rule R193): the record written, `MODE` Halted, nothing else changed; `PC` stays
at the advanced address. There is no return from it but reset (rules R197, R198). -/
def State.raiseFault (s : State) (cause : FaultCause) (word : Word) (addr : Addr) : State :=
  { s.recordFault cause word addr with mode := .halted }

/-- An illegal word (rules R191, R209): the fault sequence under `HALT`, only the record under `SKIP`. -/
def State.unknownOpcode (s : State) (word : Word) (addr : Addr) : State :=
  match s.cfg.policy with
  | .halt => s.raiseFault .unknownOpcode word addr
  | .skip => s.recordFault .unknownOpcode word addr

/-- The address the instruction in progress was fetched from: `PC` is already advanced by 2 (rules R84,
R193). DEDUCED (log 22). -/
def State.fetchedFrom (s : State) : Addr := s.pc - 2#12

/-! ### Execution state (rules R31, R199, R201, R203) -/

/-- `WAIT_REG <- x ; MODE <- AwaitingKey` (rule R173). -/
def State.awaitKey (s : State) (x : RegIdx) : State := { s with waitReg := x, mode := .awaitingKey }

/-- The key notification is armed exactly while the core awaits a key (rule R201). -/
def State.keyWaitArmed (s : State) : Bool := s.mode == .awaitingKey

/-- The resume (rule R199): in AwaitingKey, `V[WAIT_REG] <- k` and `MODE <- Running` at once; otherwise the
event has no effect (rule R201). The value is written as delivered (D15, log 16). -/
def State.resume (s : State) (k : Byte) : State :=
  if s.mode = .awaitingKey then { s.setReg s.waitReg k with mode := .running } else s

/-- One timer's decrement, with floor 0 (rule R203). -/
def countDown (t : Byte) : Byte := if t.toNat > 0 then t - 1#8 else t

/-- The timer tick: both timers at once (rule R203, D25). -/
def State.tickTimers (s : State) : State := { s with dt := countDown s.dt, st := countDown s.st }

/-- `sound_active` (rules R44, R221). -/
def State.soundActive (s : State) : Bool := s.st != 0#8

/-! ### Reset (rule R230) -/

/-- `initialize()`: every piece of core state takes its reset value; the parameters and the collaborators are
not touched (rules R36, R230). -/
def State.initialize (s : State) : State := { State.reset with cfg := s.cfg, env := s.env }

/-! ### Fetching (rules R63, R65, R84) -/

/-- The word at an address, high byte first, the second byte's address modulo 4096. -/
def Memory.word (m : Memory) (f : FontSet) (a : Addr) : Word :=
  wordOfBytes (m.read f a) (m.read f (a + 1#12))

/-- The word at `PC`. -/
def State.fetchWord (s : State) : Word := s.mem.word s.cfg.fontSet s.pc

/-- Store a word at `PC`, as the fetch reads it. -/
def State.placeWord (s : State) (w : Word) : State :=
  (s.writeByte s.pc (Word.hi w)).writeByte (s.pc + 1#12) (Word.lo w)

/-- The controller in the loop of a `cycle()` with at least one step left (rule R205). -/
def Phase.inLoop : Phase → Phase
  | .loop (left + 1) => .loop (left + 1)
  | _ => .loop 1

/-- The state in which the next step is an instruction step that fetches at `PC`: the core Running
(rule R84), the controller in its loop with a step left (rule R205), no key event at the coming
boundary (rule R206). -/
def State.aboutToFetch (s : State) : State :=
  { s with mode := .running, ctl := s.ctl.inLoop, env := { s.env with turns := [] } }

end Sys2Proof.Machine
end

