-- ==== Sys2Proof/Machine/Ports.lean ====
section
/-!
DEFINITION. The ports of the core (rules R40 to R43) and the collaborators behind them as far as the core
relies on them (rules R215 to R220). Every transaction is recorded in `Env.ports` (log 21).
-/

namespace Sys2Proof.Machine

/-- Record a transaction. -/
def Env.record (e : Env) (p : PortEvent) : Env := { e with ports := e.ports ++ [p] }

/-! ### RNG (rules R43, R220) -/

/-- The answer the next `RandByte()` request gets: scripted, else free (log 17). -/
def Env.nextRand (e : Env) : Byte := e.randAnswers.headD (Config.randByte e.draws)

/-- `RandByte()`: one answer used up. -/
def Env.tookRand (e : Env) : Env :=
  { e with
    randAnswers := e.randAnswers.tail
    draws := if e.randAnswers.isEmpty then e.draws + 1 else e.draws
    ports := e.ports ++ [.randByte e.nextRand] }

/-! ### Input (rules R42, R218, R219) -/

/-- The answer the next `KeyPressed(k)` query gets: scripted, else free, for every 8-bit `k` (log 15). -/
def Env.nextKey (e : Env) (k : Byte) : Bool := e.keyAnswers.headD (Config.keyPressed e.draws k)

/-- `KeyPressed(k)`: one answer used up. -/
def Env.tookKey (e : Env) (k : Byte) : Env :=
  { e with
    keyAnswers := e.keyAnswers.tail
    draws := if e.keyAnswers.isEmpty then e.draws + 1 else e.draws
    ports := e.ports ++ [.keyPressed k (e.nextKey k)] }

/-- `ArmKeyWait()`. -/
def Env.armKeyWait (e : Env) : Env := e.record .armKeyWait

/-- What happens at the coming boundary of rule R206: a key event with its value, or nothing, so that the
core moves. Scripted; else, while a key is awaited, free (log 16); else nothing, since an event would
have no effect (rule R201). -/
def State.keyEventDue (s : State) : Option Byte :=
  match s.env.turns with
  | t :: _ => t
  | [] => if s.mode = .awaitingKey then Config.keyEvent s.env.draws else none

/-- The boundary passed. -/
def State.passBoundary (s : State) : State :=
  match s.env.turns with
  | _ :: ts => s.setEnv { s.env with turns := ts }
  | [] => if s.mode = .awaitingKey then s.setEnv { s.env with draws := s.env.draws + 1 } else s

/-- `KeyEvent(k)` arrives (rules R199, R201). -/
def State.keyEvent (s : State) (k : Byte) : State :=
  (s.setEnv (s.env.record (.keyEvent k))).resume k

/-! ### Display (rules R41, R215 to R217) -/

/-- The number of the pixel the Display associates with a coordinate: its own inside the bitmap, by the edge
rule outside; none where no pixel of the bitmap is meant (rule R216; log 13). -/
def Display.pixelAt (d : Display) (x y : Nat) : Option Nat :=
  (if x < d.width ∧ y < d.height then some (y * d.width + x)
   else match d.edge with
    | .wrap => some ((y % d.height) * d.width + x % d.width)
    | .unstated => Config.edgePixel d.width d.height x y).filter (fun p => decide (p < d.width * d.height))

/-- Toggle a pixel number in a strictly rising list. -/
def togglePixel (p : Nat) : List Nat → List Nat
  | [] => [p]
  | q :: qs => if p < q then p :: q :: qs else if p = q then qs else q :: togglePixel p qs

/-- The answer of `DispSetPixel(x, y)`: the pixel was on (rule R216). -/
def Display.collides (d : Display) (x y : Nat) : Bool :=
  match d.pixelAt x y with
  | some p => decide (p ∈ d.pixels)
  | none => false

/-- The effect of `DispSetPixel(x, y)`: the pixel is toggled (rule R216). -/
def Display.toggle (d : Display) (x y : Nat) : Display :=
  match d.pixelAt x y with
  | some p => { d with pixels := togglePixel p d.pixels }
  | none => d

/-- `DispSetPixel(x, y)` on the port. -/
def Env.setPixel (e : Env) (p : Coord × Coord) : Env :=
  { e with
    display := e.display.toggle p.1.toNat p.2.toNat
    ports := e.ports ++ [.dispSetPixel p.1 p.2 (e.display.collides p.1.toNat p.2.toNat)] }

/-- A sequence of `DispSetPixel` requests, each issued whatever the earlier answers (rule R161). -/
def Env.setPixels (e : Env) : List (Coord × Coord) → Env
  | [] => e
  | p :: ps => (e.setPixel p).setPixels ps

/-- Some request of the sequence answers true (`collided` of rule R161). -/
def Env.anyCollision (e : Env) : List (Coord × Coord) → Bool
  | [] => false
  | p :: ps => e.display.collides p.1.toNat p.2.toNat || (e.setPixel p).anyCollision ps

/-- `DispClear()`: every pixel off (rule R215). -/
def Env.clearDisplay (e : Env) : Env :=
  { e with display := { e.display with pixels := [] }, ports := e.ports ++ [.dispClear] }

/-- `DispRender()`: no effect on the bitmap (rule R217). -/
def Env.render (e : Env) : Env := e.record .dispRender

/-- The canonical form of a bitmap: pixel numbers strictly rising, all inside the bitmap. -/
abbrev Display.wf (d : Display) : Prop :=
  d.pixels.Pairwise (· < ·) ∧ ∀ p ∈ d.pixels, p < d.width * d.height

end Sys2Proof.Machine
end

