-- ==== Sys2Proof/Machine/Operands.lean ====
section
/-!
DEFINITION. The operand forms beyond a plain register or immediate: sums with `I` and `nnn`, the font address,
the digits of `Fx33`, and the pixels of a sprite (rules R83, R108, R141 to R146, R161, R162).
-/

namespace Sys2Proof.Machine

/-- The effective address `(I + offset) mod 4096` (rules R62, R146; D3, log 11). -/
def effAddr (i : Addr) (offset : Nat) : Addr := i + BitVec.ofNat 12 offset

/-- An address plus an unsigned byte, modulo 4096 (rules R108, R141). -/
def addrPlusByte (a : Addr) (b : Byte) : Addr := a + b.setWidth 12

/-- `(FONT_BASE + V[x] * 5) mod 4096`, the byte not masked (rule R142). -/
def fontAddr (f : FontSet) (b : Byte) : Addr := f.base + BitVec.ofNat 12 (b.toNat * 5)

/-- The hundreds digit (rule R143). -/
def hundreds (b : Byte) : Byte := BitVec.ofNat 8 (b.toNat / 100)
/-- The tens digit (rule R143). -/
def tens (b : Byte) : Byte := BitVec.ofNat 8 (b.toNat / 10 % 10)
/-- The ones digit (rule R143). -/
def ones (b : Byte) : Byte := BitVec.ofNat 8 (b.toNat % 10)

/-- A coordinate, the plain sum of a register and a count, not reduced (rules R41, R161; D13, log 14). -/
def coord (b : Byte) (k : Nat) : Coord := b.setWidth 9 + BitVec.ofNat 9 k

/-- The pixels of one sprite row: the columns of its 1 bits, bit 7 first (rule R162). -/
def rowPixels (byte : Byte) (vx vy : Byte) (row : Nat) : List (Coord × Coord) :=
  ((List.range 8).filter (fun col => byte.getLsbD (7 - col))).map
    (fun col => (coord vx col, coord vy row))

/-- The pixels of a sprite of `n` rows at `I`, row by row from the top (rules R161, R162). -/
def spritePixels (m : Memory) (f : FontSet) (i : Addr) (vx vy : Byte) (n : Nat) :
    List (Coord × Coord) :=
  (List.range n).flatMap (fun row => rowPixels (m.read f (effAddr i row)) vx vy row)

end Sys2Proof.Machine
end

