-- ==== Sys2Proof/Machine/ControlFlow.lean ====
section
/-!
DEFINITION. The control-transfer instructions (spec/40_control_flow.md). On entry `PC` is already advanced
(rule R84).
-/

namespace Sys2Proof.Machine

/-- `00EE` return (rule R101). -/
def execRet (s : State) : Host.Outcome State Fault Refusal :=
  if some : 0 < s.sp.val then .next (s.drop.setPc (s.top some))
  else .next (s.raiseFault .stackUnderflow (encode .ret) s.fetchedFrom)

/-- `1nnn` jump (rule R102). -/
def execJump (nnn : Addr) (s : State) : Host.Outcome State Fault Refusal :=
  .next (s.setPc nnn)

/-- `2nnn` call (rule R103). -/
def execCall (nnn : Addr) (s : State) : Host.Outcome State Fault Refusal :=
  if room : s.sp.val < 16 then .next ((s.push s.pc room).setPc nnn)
  else .next (s.raiseFault .stackOverflow (encode (.call nnn)) s.fetchedFrom)

/-- `3xkk` skip-eq-imm (rule R104). -/
def execSkipEqImm (x : RegIdx) (kk : Byte) (s : State) : Host.Outcome State Fault Refusal :=
  .next (s.skipIf (s.reg x == kk))

/-- `4xkk` skip-ne-imm (rule R105). -/
def execSkipNeImm (x : RegIdx) (kk : Byte) (s : State) : Host.Outcome State Fault Refusal :=
  .next (s.skipIf (s.reg x != kk))

/-- `5xy0` skip-eq-reg (rule R106). -/
def execSkipEqReg (x y : RegIdx) (s : State) : Host.Outcome State Fault Refusal :=
  .next (s.skipIf (s.reg x == s.reg y))

/-- `9xy0` skip-ne-reg (rule R107). -/
def execSkipNeReg (x y : RegIdx) (s : State) : Host.Outcome State Fault Refusal :=
  .next (s.skipIf (s.reg x != s.reg y))

/-- `Bnnn` jump-offset (rule R108). -/
def execJumpOffset (nnn : Addr) (s : State) : Host.Outcome State Fault Refusal :=
  .next (s.setPc (addrPlusByte nnn (s.reg 0#4)))

end Sys2Proof.Machine
end

