-- ==== Sys2Proof/Machine/Flags.lean ====
section
/-!
DEFINITION. The flag values written to `VF` (rule R21): carry, strict greater, the bits shifted out, collision.
-/

namespace Sys2Proof.Machine

/-- A flag as the byte written to `VF`: 1 or 0 (rule R21). -/
def flagByte (c : Bool) : Byte := if c then 1#8 else 0#8

/-- The 9-bit sum of two bytes, 0 to 510 (rule R127). -/
def byteSum (a b : Byte) : Nat := a.toNat + b.toNat

/-- Carry out: the sum exceeds 255 (rules R21, R127). -/
def carryFlag (a b : Byte) : Byte := flagByte (decide (byteSum a b > 255))

/-- The subtract flag: the minuend is strictly greater (rules R21, R120, R128, R130). -/
def greaterFlag (minuend subtrahend : Byte) : Byte :=
  flagByte (decide (minuend.toNat > subtrahend.toNat))

/-- The bit a right shift shifts out, bit 0 (rules R21, R129). -/
def lowBitFlag (a : Byte) : Byte := a &&& 1#8

/-- The bit a left shift shifts out, bit 7 (rules R21, R131). -/
def highBitFlag (a : Byte) : Byte := (a >>> 7) &&& 1#8

end Sys2Proof.Machine
end

