-- ==== Sys2Proof/Machine/DisplayOps.lean ====
section
/-!
DEFINITION. The display instructions (spec/43_display.md).
-/

namespace Sys2Proof.Machine

/-- `00E0` clear (rule R160). -/
def execClear (s : State) : Host.Outcome State Fault Refusal :=
  .next (s.setEnv s.env.clearDisplay)

/-- `Dxyn` draw (rule R161): one `DispSetPixel` for each 1 bit of the sprite, in order, then `VF`. The
coordinates are the registers before `VF` is written. -/
def execDraw (x y : RegIdx) (n : BitVec 4) (s : State) : Host.Outcome State Fault Refusal :=
  let pixels := spritePixels s.mem s.cfg.fontSet s.i (s.reg x) (s.reg y) n.toNat
  .next ((s.setEnv (s.env.setPixels pixels)).setReg vF (flagByte (s.env.anyCollision pixels)))

end Sys2Proof.Machine
end

