-- ==== Sys2Proof/Machine/IndexMemory.lean ====
section
/-!
DEFINITION. The index-register and memory instructions (spec/42_index_memory.md).
-/

namespace Sys2Proof.Machine

/-- `Annn` load-index (rule R140). -/
def execLoadIndex (nnn : Addr) (s : State) : Host.Outcome State Fault Refusal :=
  .next (s.setIndex nnn)

/-- `Fx1E` add-index, no flag (rule R141). -/
def execAddIndex (x : RegIdx) (s : State) : Host.Outcome State Fault Refusal :=
  .next (s.setIndex (addrPlusByte s.i (s.reg x)))

/-- `Fx29` font-char, the byte not masked (rule R142). -/
def execFontChar (x : RegIdx) (s : State) : Host.Outcome State Fault Refusal :=
  .next (s.setIndex (fontAddr s.cfg.fontSet (s.reg x)))

/-- `Fx33` bcd (rule R143): three bytes in ascending order. -/
def execBcd (x : RegIdx) (s : State) : Host.Outcome State Fault Refusal :=
  let t := s.reg x
  .next (((s.writeByte (effAddr s.i 0) (hundreds t)).writeByte (effAddr s.i 1) (tens t)).writeByte
    (effAddr s.i 2) (ones t))

/-- `MEM[I + k] <- V[k]` for `k = 0 .. n - 1`, ascending (rule R144). -/
def State.storeRange (s : State) : Nat → State
  | 0 => s
  | n + 1 => (s.storeRange n).writeByte (effAddr s.i n) (s.reg (BitVec.ofNat 4 n))

/-- `V[k] <- MEM[I + k]` for `k = 0 .. n - 1`, ascending (rule R145). -/
def State.loadRange (s : State) : Nat → State
  | 0 => s
  | n + 1 => (s.loadRange n).setReg (BitVec.ofNat 4 n) (s.readByte (effAddr s.i n))

/-- `Fx55` store-regs (rule R144): `V[0]` to `V[x]`; `I` unchanged. -/
def execStoreRegs (x : RegIdx) (s : State) : Host.Outcome State Fault Refusal :=
  .next (s.storeRange (x.toNat + 1))

/-- `Fx65` load-regs (rule R145): `V[0]` to `V[x]`; `I` unchanged. -/
def execLoadRegs (x : RegIdx) (s : State) : Host.Outcome State Fault Refusal :=
  .next (s.loadRange (x.toNat + 1))

end Sys2Proof.Machine
end

