-- ==== Sys2Proof/Machine/KeypadTimers.lean ====
section
/-!
DEFINITION. The keypad and timer instructions (spec/44_keypad_timers.md).
-/

namespace Sys2Proof.Machine

/-- `Ex9E` skip-key-pressed (rule R170): one query with the full 8-bit `Vx`. -/
def execSkipKeyPressed (x : RegIdx) (s : State) : Host.Outcome State Fault Refusal :=
  .next ((s.setEnv (s.env.tookKey (s.reg x))).skipIf (s.env.nextKey (s.reg x)))

/-- `ExA1` skip-key-not-pressed (rule R171): one query with the full 8-bit `Vx`. -/
def execSkipKeyNotPressed (x : RegIdx) (s : State) : Host.Outcome State Fault Refusal :=
  .next ((s.setEnv (s.env.tookKey (s.reg x))).skipIf (!s.env.nextKey (s.reg x)))

/-- `Fx07` read-delay (rule R172). -/
def execReadDelay (x : RegIdx) (s : State) : Host.Outcome State Fault Refusal :=
  .next (s.setReg x s.dt)

/-- `Fx0A` wait-key (rule R173): the register is written later, by the key event. -/
def execWaitKey (x : RegIdx) (s : State) : Host.Outcome State Fault Refusal :=
  .next ((s.awaitKey x).setEnv s.env.armKeyWait)

/-- `Fx15` set-delay (rule R174). -/
def execSetDelay (x : RegIdx) (s : State) : Host.Outcome State Fault Refusal :=
  .next (s.setDelay (s.reg x))

/-- `Fx18` set-sound (rule R175). -/
def execSetSound (x : RegIdx) (s : State) : Host.Outcome State Fault Refusal :=
  .next (s.setSound (s.reg x))

end Sys2Proof.Machine
end

