-- ==== Sys2Proof/Machine/LoadAlu.lean ====
section
/-!
DEFINITION. The load-immediate, arithmetic, logic, shift and random instructions (spec/41_load_alu.md).
The statements of each run in order, each seeing the registers as the earlier ones left them (rule R87;
D2, log 10).
-/

namespace Sys2Proof.Machine

/-- `6xkk` load-imm (rule R121). -/
def execLoadImm (x : RegIdx) (kk : Byte) (s : State) : Host.Outcome State Fault Refusal :=
  .next (s.setReg x kk)

/-- `7xkk` add-imm, no flag (rule R122). -/
def execAddImm (x : RegIdx) (kk : Byte) (s : State) : Host.Outcome State Fault Refusal :=
  .next (s.setReg x (BitVec.ofNat 8 (byteSum (s.reg x) kk)))

/-- `8xy0` move (rule R123). -/
def execMove (x y : RegIdx) (s : State) : Host.Outcome State Fault Refusal :=
  .next (s.setReg x (s.reg y))

/-- `8xy1` or (rule R124). -/
def execOrReg (x y : RegIdx) (s : State) : Host.Outcome State Fault Refusal :=
  .next (s.setReg x (s.reg x ||| s.reg y))

/-- `8xy2` and (rule R125). -/
def execAndReg (x y : RegIdx) (s : State) : Host.Outcome State Fault Refusal :=
  .next (s.setReg x (s.reg x &&& s.reg y))

/-- `8xy3` xor (rule R126). -/
def execXorReg (x y : RegIdx) (s : State) : Host.Outcome State Fault Refusal :=
  .next (s.setReg x (s.reg x ^^^ s.reg y))

/-- `8xy4` add (rule R127): the sum first, then `VF`, then `Vx`. -/
def execAddReg (x y : RegIdx) (s : State) : Host.Outcome State Fault Refusal :=
  let sum := byteSum (s.reg x) (s.reg y)
  let s1 := s.setReg vF (carryFlag (s.reg x) (s.reg y))
  .next (s1.setReg x (BitVec.ofNat 8 sum))

/-- `8xy5` sub (rule R128): `VF` first, then the difference of the registers as they then stand. -/
def execSubReg (x y : RegIdx) (s : State) : Host.Outcome State Fault Refusal :=
  let s1 := s.setReg vF (greaterFlag (s.reg x) (s.reg y))
  .next (s1.setReg x (s1.reg x - s1.reg y))

/-- `8xy6` shr (rule R129): `Vx` is shifted, `Vy` is not read. -/
def execShr (x y : RegIdx) (s : State) : Host.Outcome State Fault Refusal :=
  let _unused := y
  let s1 := s.setReg vF (lowBitFlag (s.reg x))
  .next (s1.setReg x (s1.reg x >>> 1))

/-- `8xy7` subn (rule R130): `VF` first, then the difference of the registers as they then stand. -/
def execSubnReg (x y : RegIdx) (s : State) : Host.Outcome State Fault Refusal :=
  let s1 := s.setReg vF (greaterFlag (s.reg y) (s.reg x))
  .next (s1.setReg x (s1.reg y - s1.reg x))

/-- `8xyE` shl (rule R131): `Vx` is shifted, `Vy` is not read. -/
def execShl (x y : RegIdx) (s : State) : Host.Outcome State Fault Refusal :=
  let _unused := y
  let s1 := s.setReg vF (highBitFlag (s.reg x))
  .next (s1.setReg x (s1.reg x <<< 1))

/-- `Cxkk` random (rule R132): one `RandByte()` request. -/
def execRandom (x : RegIdx) (kk : Byte) (s : State) : Host.Outcome State Fault Refusal :=
  .next ((s.setEnv s.env.tookRand).setReg x (s.env.nextRand &&& kk))

end Sys2Proof.Machine
end

