-- ==== Sys2Proof/Machine/Controller.lean ====
section
/-!
DEFINITION. The instruction step (rule R84), the cycle-sequencing controller one atomic unit at a time
(rules R205, R206), and the host operations (rules R71, R230, R238).
-/

namespace Sys2Proof.Machine

/-- One instruction step (rule R84): fetch, advance, decode, and one instruction's meaning or
UnknownOpcode. -/
def State.instructionStep (s : State) : Host.Outcome State Fault Refusal :=
  match decodeWord s.fetchWord with
  | some i => exec i s.advance
  | none => .next (s.advance.unknownOpcode s.fetchWord s.pc)

/-- One loop iteration with `left` further steps to come after it (rule R205, `count <- count + 1`). -/
def State.iterate (s : State) (left : Nat) : Host.Outcome State Fault Refusal :=
  (s.setCtl (.loop left)).instructionStep

/-- The loop check and, where it holds, the iteration; where it fails, the loop is over (rules R205,
R206). -/
def State.loopUnit (s : State) : Nat → Host.Outcome State Fault Refusal
  | 0 => .next (s.setCtl .tick)
  | left + 1 => if s.mode = .running then s.iterate left else .next (s.setCtl .tick)

/-- The tick check together with the tick (rules R203, R205). -/
def State.tickUnit (s : State) : State :=
  (if s.mode = .running then s.tickTimers else s).setCtl .render

/-- The render request and the answer of `cycle()` (rules R205, R208). -/
def State.renderUnit (s : State) : State :=
  (s.setEnv (s.env.render.record (.cycleDone s.fault))).setCtl .idle

/-- `cycle()` begins: `count <- 0` (rule R205). -/
def State.beginCycle (s : State) : State := s.setCtl (.loop s.cfg.speed)

/-- `loadImage(bytes)` (rules R71, R210): refused outside its window (D19, log 19); an image that is too long
changes nothing; otherwise the bytes lie from `0x200` on. -/
def State.loadImage (s : State) (bytes : List Byte) : Host.Outcome State Fault Refusal :=
  match s.ctl with
  | .ready false =>
    if bytes.length > Config.maxImage then .next (s.setEnv (s.env.record (.loadFailed .imageTooLarge)))
    else .next { s with
      mem := s.mem.writeBytes s.cfg.fontSet Config.programBase bytes
      ctl := .ready true
      env := s.env.record .loadOk }
  | .ready true => .refused .loadImageTwice
  | _ => .refused .loadImageAfterCycle

/-- A host request is taken up (rules R40, R238). -/
def State.serve (s : State) : HostRequest → Host.Outcome State Fault Refusal
  | .initializeCore => .next s.initialize
  | .loadImage bytes => s.loadImage bytes
  | .cycle => .next s.beginCycle

/-- The host's turn, between two `cycle()` requests: its next request, or `cycle()` (log 18). -/
def State.hostUnit (s : State) : Host.Outcome State Fault Refusal :=
  match s.env.requests with
  | [] => .next s.beginCycle
  | r :: rs => (s.setEnv { s.env with requests := rs }).serve r

/-- One atomic unit of the core, or the host's turn (rules R205, R206). -/
def State.coreUnit (s : State) : Host.Outcome State Fault Refusal :=
  match s.ctl with
  | .ready _ => s.hostUnit
  | .idle => s.hostUnit
  | .loop left => s.loopUnit left
  | .tick => .next s.tickUnit
  | .render => .next s.renderUnit

/-- What one step does: the key event due at this boundary, if any, else one unit (rules R17, R206). -/
def State.takeStep (s : State) : Host.Outcome State Fault Refusal :=
  match s.keyEventDue with
  | some k => .next (s.passBoundary.keyEvent k)
  | none => s.passBoundary.coreUnit

end Sys2Proof.Machine
end

