-- ==== Sys2Proof/Machine/Step.lean ====
section
/-!
DEFINITION. The step: one atomic unit of the machine (rule R206; log 18), and the placing of a word where the
next step fetches it (log 20).
-/

namespace Sys2Proof.Machine

/-- One step of the machine. -/
def step (s : State) : Host.Outcome State Fault Refusal := s.takeStep

/-- The state with an instruction's bits `w` (as the opcode table numbers them, those above `nbits` zero)
stored at `PC`, and all that the very next step needs to fetch it. -/
def State.withFetchWord (s : State) (nbits w : Nat) : State :=
  (s.placeWord (BitVec.ofNat 16 (w % 2 ^ nbits))).aboutToFetch

end Sys2Proof.Machine
end

