-- ==== Sys2Proof/Safety.lean ====
section
/-!
DEFINITION. What claims are stated in: the invariant of the machine, what a safe state is, `cycle()` as one
algorithm, against which the atomic units of the step are held.
-/

namespace Sys2Proof.Machine

/-! ### Invariant and safety -/

/-- The steps left in the loop of a `cycle()` are at most `SPEED` (rule R205). -/
def Phase.within (p : Phase) (speed : Nat) : Bool :=
  match p with
  | .loop left => decide (left ≤ speed)
  | _ => true

/-- Before the first `cycle()` the core is Running with `PC` at the entry point (rules R230, R231). -/
def State.readyAtEntry (s : State) : Bool :=
  match s.ctl with
  | .ready _ => s.mode == .running && s.pc == Config.programBase
  | _ => true

/-- The invariant that reset has and every step keeps (rule R39): the font in the reserved region, memory and
bitmap in canonical form, a record present whenever the core is Halted, the loop within `SPEED`, boot at
the entry point. The other bounds of rule R39 are built into the types of the fields. -/
abbrev State.Inv (s : State) : Prop :=
  s.cfg.fontSet.reserved ∧ s.mem.wf s.cfg.fontSet ∧ s.env.display.wf ∧ (s.mode = .halted → s.fault ≠ none) ∧
    s.ctl.within s.cfg.speed = true ∧ s.readyAtEntry = true

/-- A state of a safe run: not Halted (rule R197: a Halted state is a faulted state). -/
abbrev State.Safe (s : State) : Prop := s.mode ≠ .halted

/-! ### `cycle()` as one algorithm (rule R205) -/

/-- The loop of rule R205, `count` counting up from 0 to `SPEED`; `fuel` bounds the recursion and never
runs out when it starts at `SPEED`. No key event arrives during it. -/
def State.cycleLoop : Nat → Nat → State → Host.Outcome State Fault Refusal
  | 0, _, s => .next s
  | fuel + 1, count, s =>
    if s.mode = .running ∧ count < s.cfg.speed then
      match s.instructionStep with
      | .next t => State.cycleLoop fuel (count + 1) t
      | .fault r => .fault r
      | .refused r => .refused r
    else .next s

/-- After the loop: the tick if Running, then the render request and the answer, always (rule R205). -/
def State.cycleTail (s : State) : State :=
  let t := if s.mode = .running then s.tickTimers else s
  { t with
    ctl := .idle
    env := { t.env with ports := t.env.ports ++ [.dispRender, .cycleDone t.fault] } }

/-- One whole `cycle()` during which no key event arrives (rule R205). -/
def State.wholeCycle (s : State) : Host.Outcome State Fault Refusal :=
  match State.cycleLoop s.cfg.speed 0 s with
  | .next t => .next t.cycleTail
  | .fault r => .fault r
  | .refused r => .refused r

/-! ### Frames -/

/-- The outcome is the state with `V[x] <- b` and nothing else changed: no other register, flag, timer,
byte of memory, stack entry or port (frame). -/
def WritesOnly (s : State) (o : Host.Outcome State Fault Refusal) (x : RegIdx) (b : Nat) : Prop :=
  ∃ v' : Vector Byte 16, o = .next { s with v := v' } ∧
    ∀ r : RegIdx, v'[r.toNat].toNat = if r = x then b else (s.reg r).toNat

/-- The outcome is the state with `V[x]` holding `b`, `VF` holding `f` where `x` is not `VF`, and nothing
else changed (frame). -/
def WritesWithFlag (s : State) (o : Host.Outcome State Fault Refusal) (x : RegIdx) (b f : Nat) : Prop :=
  ∃ v' : Vector Byte 16, o = .next { s with v := v' } ∧
    ∀ r : RegIdx, v'[r.toNat].toNat = if r = x then b else if r = vF then f else (s.reg r).toNat

/-- The controller stands between two `cycle()` requests, where a host request is taken up (rule R40). -/
def Phase.betweenCycles : Phase → Bool
  | .ready _ | .idle => true
  | .loop _ | .tick | .render => false

end Sys2Proof.Machine

/-- The registers an instruction may write in its own step (the table of rule R20, rule R21). `Fx0A` writes
none: the key event does. -/
def Sys2Proof.Instr.mayWriteReg (i : Sys2Proof.Instr) (r : Sys2Proof.RegIdx) : Bool :=
  match i with
  | .loadImm x _ | .addImm x _ | .move x _ | .orReg x _ | .andReg x _ | .xorReg x _ | .random x _
  | .readDelay x => r == x
  | .addReg x _ | .subReg x _ | .shr x _ | .subnReg x _ | .shl x _ => r == x || r == Sys2Proof.Machine.vF
  | .draw _ _ _ => r == Sys2Proof.Machine.vF
  | .loadRegs x => decide (r.toNat ≤ x.toNat)
  | .clear | .ret | .jump _ | .call _ | .skipEqImm _ _ | .skipNeImm _ _ | .skipEqReg _ _
  | .skipNeReg _ _ | .loadIndex _ | .jumpOffset _ | .skipKeyPressed _ | .skipKeyNotPressed _
  | .waitKey _ | .setDelay _ | .setSound _ | .addIndex _ | .fontChar _ | .bcd _ | .storeRegs _ => false
end

