-- ==== Sys2Proof/Certificates/Slice0/Obligations.lean ====
section
/-!
DEFINITION. The statements for the provers. Each docstring names the rule of the spec it formalises, or, where it
rests on a decision the spec marks as its own, that decision and the log entry.
-/

open Sys2Proof Sys2Proof.Machine

/-! ### Decoding and encoding -/

/-- Words written out bit by bit from spec/30_encoding.md, one or more of each family, decode to the
instructions they stand for, and illegal words are rejected by name. -/
def Obligations.SampleWordsDecode : Prop :=
  decode [0b00000000#8, 0b11100000#8] = .ok (.clear, []) ∧
  decode [0b00100010#8, 0b00010000#8] = .ok (.call 0x210#12, []) ∧
  decode [0b10000001#8, 0b00100101#8] = .ok (.subReg 1#4 2#4, []) ∧
  decode [0b10000001#8, 0b00101110#8] = .ok (.shl 1#4 2#4, []) ∧
  decode [0b11000001#8, 0b00001111#8] = .ok (.random 1#4 0x0F#8, []) ∧
  decode [0b11010000#8, 0b00010101#8, 0x77#8] = .ok (.draw 0#4 1#4 5#4, [0x77#8]) ∧
  decode [0b11100001#8, 0b10100001#8] = .ok (.skipKeyNotPressed 1#4, []) ∧
  decode [0b11110010#8, 0b01010101#8] = .ok (.storeRegs 2#4, []) ∧
  decode [0b01010001#8, 0b00100001#8] = .error (.unknownOpcode 0x5121#16) ∧
  decode [0x00#8] = .error .truncated

/-- Rule R81: the fields extracted from a word, as numbers. -/
def Obligations.FieldsOfWord : Prop :=
  ∀ w : Word,
    (Word.op w).toNat = w.toNat / 4096 ∧
    (Word.x w).toNat = w.toNat / 256 % 16 ∧
    (Word.y w).toNat = w.toNat / 16 % 16 ∧
    (Word.n w).toNat = w.toNat % 16 ∧
    (Word.kk w).toNat = w.toNat % 256 ∧
    (Word.nnn w).toNat = w.toNat % 4096 ∧
    (Word.kk w).toNat = (Word.y w).toNat * 16 + (Word.n w).toNat ∧
    (Word.nnn w).toNat = (Word.x w).toNat * 256 + (Word.kk w).toNat

/-- Decoding the bytes of an encoded instruction gives it back with the bytes after it: no bit of an
encoding is dropped (rules R80, R82, R85). -/
def Obligations.DecodeOfEncode : Prop :=
  ∀ (i : Instr) (rest : List Byte), i.wellFormed = true → decode (encodeBytes i ++ rest) = .ok (i, rest)

/-- Every legal word is the encoding of what it decodes to: decoding keeps every bit, the unused `y` of the
shifts too (rules R85, R91). It rests on strict decoding, the spec's decision D1 (log 9): a lenient decoder
would send `0x5121` to skip-eq-reg, whose encoding is `0x5120`. -/
def Obligations.EncodeOfDecode : Prop :=
  ∀ (w : Word) (i : Instr), decodeWord w = some i → encode i = w ∧ i.wellFormed = true

/-- The opcode map of rule R86: 34 rows; a word decodes to a row's instruction exactly when it matches the
row's mask and pattern; no word matches two rows. The strictness is the spec's decision D1 (log 9). -/
def Obligations.DecodeFollowsOpcodeMap : Prop :=
  opRows.length = 34 ∧
  (∀ (w : Word) (r : OpRow), r ∈ opRows →
    (w &&& r.mask = r.pattern ↔ ∃ i, decodeWord w = some i ∧ i.mnemonic = r.mnemonic)) ∧
  (∀ (w : Word) (r r' : OpRow), r ∈ opRows → r' ∈ opRows →
    w &&& r.mask = r.pattern → w &&& r'.mask = r'.pattern → r = r') ∧
  (∀ w : Word, decodeWord w = none ↔ legalWord w = false)

/-- The illegal words, family by family, on the digits of the word as numbers (the table of rule R88; the
spec's decision D1, log 9). -/
def Obligations.IllegalWordsByFamily : Prop :=
  ∀ w : Word, decodeWord w = none ↔
    (w.toNat / 4096 = 0x0 ∧ w.toNat ≠ 0x00E0 ∧ w.toNat ≠ 0x00EE) ∨
    (w.toNat / 4096 = 0x5 ∧ w.toNat % 16 ≠ 0) ∨
    (w.toNat / 4096 = 0x8 ∧ w.toNat % 16 ∈ [0x8, 0x9, 0xA, 0xB, 0xC, 0xD, 0xF]) ∨
    (w.toNat / 4096 = 0x9 ∧ w.toNat % 16 ≠ 0) ∨
    (w.toNat / 4096 = 0xE ∧ w.toNat % 256 ∉ [0x9E, 0xA1]) ∨
    (w.toNat / 4096 = 0xF ∧
      w.toNat % 256 ∉ [0x07, 0x0A, 0x15, 0x18, 0x1E, 0x29, 0x33, 0x55, 0x65])

/-! ### Control flow -/

/-- Rules R102 and R108: jump and jump-offset set `PC` to their target and change nothing else. -/
def Obligations.JumpsSetPc : Prop :=
  ∀ (s : State) (nnn : Addr),
    exec (.jump nnn) s = .next { s with pc := nnn } ∧
    ∃ target : Addr, target.toNat = (nnn.toNat + (s.reg 0#4).toNat) % 4096 ∧
      exec (.jumpOffset nnn) s = .next { s with pc := target }

/-- Rules R104 and R105: skip-eq-imm and skip-ne-imm change nothing but `PC`, and exactly one of the two
skips. -/
def Obligations.ImmediateSkips : Prop :=
  ∀ (s : State) (x : RegIdx) (kk : Byte), ∃ skipped : Addr,
    skipped.toNat = (s.pc.toNat + 2) % 4096 ∧
    (s.reg x = kk → exec (.skipEqImm x kk) s = .next { s with pc := skipped } ∧
      exec (.skipNeImm x kk) s = .next s) ∧
    (s.reg x ≠ kk → exec (.skipEqImm x kk) s = .next s ∧
      exec (.skipNeImm x kk) s = .next { s with pc := skipped })

/-- Rules R106 and R107: skip-eq-reg and skip-ne-reg change nothing but `PC`; with `x = y` the first always
skips and the second never. -/
def Obligations.RegisterSkips : Prop :=
  ∀ (s : State) (x y : RegIdx), ∃ skipped : Addr,
    skipped.toNat = (s.pc.toNat + 2) % 4096 ∧
    (s.reg x = s.reg y → exec (.skipEqReg x y) s = .next { s with pc := skipped } ∧
      exec (.skipNeReg x y) s = .next s) ∧
    (s.reg x ≠ s.reg y → exec (.skipEqReg x y) s = .next s ∧
      exec (.skipNeReg x y) s = .next { s with pc := skipped }) ∧
    exec (.skipEqReg x x) s = .next { s with pc := skipped } ∧
    exec (.skipNeReg x x) s = .next s

/-- call with room on the stack pushes `PC` and jumps, return on a stack that is not empty pops; nothing else
changes, and the other entries stay (rules R101, R103). The entry index is the spec's decision D17
(log 2). -/
def Obligations.CallAndReturn : Prop :=
  ∀ (s : State) (nnn : Addr),
    (∀ _ : s.sp.val < 16, ∃ (sp' : Fin 17) (stack' : Vector Addr 16),
      exec (.call nnn) s = .next { s with pc := nnn, sp := sp', stack := stack' } ∧
      sp'.val = s.sp.val + 1 ∧
      ∀ (k : Nat) (_ : k < 16), stack'[k] = if k = s.sp.val then s.pc else s.stack[k]) ∧
    (∀ _ : 0 < s.sp.val, ∃ (sp' : Fin 17) (k : Fin 16),
      exec .ret s = .next { s with pc := s.stack[k.val], sp := sp' } ∧
      sp'.val + 1 = s.sp.val ∧ k.val = sp'.val)

/-- call and return compose: from the state a call leaves, or any later state with the same stack, return
goes to the instruction after the call and the stack is as before it (rule R27, `S7`). -/
def Obligations.ReturnUndoesCall : Prop :=
  ∀ (s u : State) (nnn : Addr), s.sp.val < 16 →
    ∃ t, exec (.call nnn) s = .next t ∧
      (u.sp = t.sp → u.stack = t.stack → exec .ret u = .next { u with pc := s.pc, sp := s.sp })

/-- The stack faults, as a step takes them: `SP`, `STACK` and all else unchanged, `PC` past the instruction, the
record with the word and its address, `MODE` Halted (rules R101, R103, R192). The Halted state and the
record are the spec's decisions D4 and D6 (log 12); the record's word and address are log 22. -/
def Obligations.StackFaultsHalt : Prop :=
  ∀ (s : State) (left : Nat), s.mode = .running → s.ctl = .loop (left + 1) → s.keyEventDue = none →
    (s.fetchWord = 0x00EE#16 → s.sp.val = 0 →
      step s = .next { s with
        pc := s.pc + 2#12, fault := some ⟨.stackUnderflow, 0x00EE#16, s.pc⟩, mode := .halted
        ctl := .loop left, env := { s.env with turns := s.env.turns.tail } }) ∧
    (s.fetchWord.toNat / 4096 = 2 → s.sp.val = 16 →
      step s = .next { s with
        pc := s.pc + 2#12, fault := some ⟨.stackOverflow, s.fetchWord, s.pc⟩, mode := .halted
        ctl := .loop left, env := { s.env with turns := s.env.turns.tail } })

/-! ### Load, arithmetic, logic -/

/-- Rules R121 to R126: load-imm, add-imm, move, or, and, xor write `V[x]` and nothing else; no flag. -/
def Obligations.LoadAndLogic : Prop :=
  ∀ (s : State) (x y : RegIdx) (kk : Byte),
    WritesOnly s (exec (.loadImm x kk) s) x kk.toNat ∧
    WritesOnly s (exec (.addImm x kk) s) x (((s.reg x).toNat + kk.toNat) % 256) ∧
    WritesOnly s (exec (.move x y) s) x (s.reg y).toNat ∧
    WritesOnly s (exec (.orReg x y) s) x ((s.reg x).toNat ||| (s.reg y).toNat) ∧
    WritesOnly s (exec (.andReg x y) s) x ((s.reg x).toNat &&& (s.reg y).toNat) ∧
    WritesOnly s (exec (.xorReg x y) s) x ((s.reg x).toNat ^^^ (s.reg y).toNat)

/-- Rule R120: the integer arithmetic laws, for operands other than `VF` (the forms that name `VF` are
`AliasedFlagForms`). -/
def Obligations.ArithmeticLaws : Prop :=
  ∀ (s : State) (x y : RegIdx) (kk : Byte) (a b : Nat), (s.reg x).toNat = a → (s.reg y).toNat = b →
    x ≠ vF →
    (y ≠ vF →
      WritesWithFlag s (exec (.addReg x y) s) x ((a + b) % 256) (if a + b > 255 then 1 else 0) ∧
      WritesWithFlag s (exec (.subReg x y) s) x ((256 + a - b) % 256) (if a > b then 1 else 0) ∧
      WritesWithFlag s (exec (.subnReg x y) s) x ((256 + b - a) % 256) (if b > a then 1 else 0)) ∧
    WritesWithFlag s (exec (.shr x y) s) x (a / 2) (a % 2) ∧
    WritesWithFlag s (exec (.shl x y) s) x (2 * a % 256) (a / 128) ∧
    WritesOnly s (exec (.addImm x kk) s) x ((a + kk.toNat) % 256) ∧
    WritesOnly s (exec (.orReg x y) s) x (a ||| b) ∧
    WritesOnly s (exec (.andReg x y) s) x (a &&& b) ∧
    WritesOnly s (exec (.xorReg x y) s) x (a ^^^ b)

/-- The results where `VF` is an operand, as the statement order gives them (columns two to four of the table
of rule R133). The order is the spec's decision D2 (log 10). -/
def Obligations.AliasedFlagForms : Prop :=
  ∀ (s : State) (x y : RegIdx) (a b old : Nat),
    (s.reg x).toNat = a → (s.reg y).toNat = b → (s.reg vF).toNat = old →
    (x ≠ vF →
      WritesWithFlag s (exec (.addReg x vF) s) x ((a + old) % 256) (if a + old > 255 then 1 else 0) ∧
      WritesWithFlag s (exec (.subReg x vF) s) x
        ((256 + a - (if a > old then 1 else 0)) % 256) (if a > old then 1 else 0) ∧
      WritesWithFlag s (exec (.subnReg x vF) s) x
        ((256 + (if old > a then 1 else 0) - a) % 256) (if old > a then 1 else 0)) ∧
    (y ≠ vF →
      WritesOnly s (exec (.subReg vF y) s) vF ((256 + (if old > b then 1 else 0) - b) % 256) ∧
      WritesOnly s (exec (.subnReg vF y) s) vF ((256 + b - (if b > old then 1 else 0)) % 256)) ∧
    WritesOnly s (exec (.addReg vF y) s) vF ((old + b) % 256) ∧
    WritesOnly s (exec (.subReg vF vF) s) vF 0 ∧
    WritesOnly s (exec (.subnReg vF vF) s) vF 0 ∧
    WritesOnly s (exec (.shr vF y) s) vF 0 ∧
    WritesOnly s (exec (.shl vF y) s) vF (2 * (old / 128))

/-- random: one request on the RNG port, whose answer, masked, is the new `V[x]`; a scripted answer is the one
used, and every bit outside the mask is 0 (rule R132). That the answer is free is the spec's decision
D21 (log 17). -/
def Obligations.RandomMasksOneAnswer : Prop :=
  ∀ (s : State) (x : RegIdx) (kk : Byte), ∃ (r : Byte) (rest : List Byte) (d : Nat) (v' : Vector Byte 16),
    exec (.random x kk) s = .next { s with
      v := v'
      env := { s.env with randAnswers := rest, draws := d, ports := s.env.ports ++ [.randByte r] } } ∧
    (∀ q : RegIdx, v'[q.toNat] = if q = x then r &&& kk else s.reg q) ∧
    v'[x.toNat] &&& ~~~kk = 0#8 ∧
    (∀ (r' : Byte) (rs : List Byte), s.env.randAnswers = r' :: rs → r = r' ∧ rest = rs)

/-! ### Index register and memory -/

/-- Rules R140 and R141: load-index and add-index write `I` and nothing else; no flag. -/
def Obligations.IndexWrites : Prop :=
  ∀ (s : State) (nnn : Addr) (x : RegIdx),
    exec (.loadIndex nnn) s = .next { s with i := nnn } ∧
    ∃ sum : Addr, sum.toNat = (s.i.toNat + (s.reg x).toNat) % 4096 ∧
      exec (.addIndex x) s = .next { s with i := sum }

/-- font-char: `I` becomes `(FONT_BASE + 5 * V[x]) mod 4096`, the byte not masked, nothing else changed; with the
font in the reserved region, a digit's five bytes lie there after `initialize()` (rules R72, R142).
`FONT_BASE` and `FONT` are parameters (D10, D11, logs 5, 6). -/
def Obligations.FontCharPointsAtSprite : Prop :=
  ∀ (s : State) (x : RegIdx), ∃ a : Addr,
    a.toNat = (s.cfg.fontSet.base.toNat + (s.reg x).toNat * 5) % 4096 ∧
    exec (.fontChar x) s = .next { s with i := a } ∧
    (s.cfg.fontSet.reserved → ∀ (k : Nat) (_ : k < 5) (_ : (s.reg x).toNat < 16),
      s.initialize.readByte (effAddr a k) = s.cfg.fontSet.bytes[(s.reg x).toNat * 5 + k])

/-- Effective addresses wrap modulo 4096, and so does the second byte of a fetch, which is big-endian
(rules R62, R63, R65). The wrapping of offset sums is the spec's decision D3 (log 11). -/
def Obligations.AddressesWrap : Prop :=
  (∀ (i : Addr) (k : Nat), (effAddr i k).toNat = (i.toNat + k) % 4096) ∧
  (∀ s : State, ∃ a : Addr, a.toNat = (s.pc.toNat + 1) % 4096 ∧
    s.fetchWord.toNat = (s.readByte s.pc).toNat * 256 + (s.readByte a).toNat)

/-- bcd stores the three decimal digits of `V[x]` at `I`, `I + 1`, `I + 2`, and changes no other byte and
nothing else (rule R143; the wrapping is D3, log 11). -/
def Obligations.BcdStoresDigits : Prop :=
  ∀ (s : State) (x : RegIdx), ∃ m' : Memory,
    exec (.bcd x) s = .next { s with mem := m' } ∧
    (m'.read s.cfg.fontSet (effAddr s.i 0)).toNat = (s.reg x).toNat / 100 ∧
    (m'.read s.cfg.fontSet (effAddr s.i 1)).toNat = (s.reg x).toNat / 10 % 10 ∧
    (m'.read s.cfg.fontSet (effAddr s.i 2)).toNat = (s.reg x).toNat % 10 ∧
    ∀ a : Addr, a ≠ effAddr s.i 0 → a ≠ effAddr s.i 1 → a ≠ effAddr s.i 2 →
      m'.read s.cfg.fontSet a = s.readByte a

/-- store-regs stores `V[0]` to `V[x]` from `I` on, and changes no other byte and nothing else, `I` included
(rule R144; the wrapping is D3, log 11). -/
def Obligations.StoreRegsStoresRange : Prop :=
  ∀ (s : State) (x : RegIdx), ∃ m' : Memory,
    exec (.storeRegs x) s = .next { s with mem := m' } ∧
    (∀ r : RegIdx, r.toNat ≤ x.toNat → m'.read s.cfg.fontSet (effAddr s.i r.toNat) = s.reg r) ∧
    ∀ a : Addr, (∀ k : Nat, k ≤ x.toNat → a ≠ effAddr s.i k) → m'.read s.cfg.fontSet a = s.readByte a

/-- load-regs loads `V[0]` to `V[x]` from `I` on, and changes no other register and nothing else, `I` and
memory included (rule R145; the wrapping is D3, log 11). -/
def Obligations.LoadRegsLoadsRange : Prop :=
  ∀ (s : State) (x : RegIdx), ∃ v' : Vector Byte 16,
    exec (.loadRegs x) s = .next { s with v := v' } ∧
    ∀ r : RegIdx, v'[r.toNat] =
      if r.toNat ≤ x.toNat then s.readByte (effAddr s.i r.toNat) else s.reg r

/-- store-regs, then load-regs with the same memory, parameters and `I`, whatever the registers hold in
between, restores the registers stored (rules R144, R145, `S12`). -/
def Obligations.LoadUndoesStore : Prop :=
  ∀ (s u : State) (x : RegIdx), ∃ t, exec (.storeRegs x) s = .next t ∧
    (u.mem = t.mem → u.cfg = t.cfg → u.i = t.i → ∃ t', exec (.loadRegs x) u = .next t' ∧
      (∀ r : RegIdx, r.toNat ≤ x.toNat → t'.reg r = s.reg r) ∧
      (∀ r : RegIdx, x.toNat < r.toNat → t'.reg r = u.reg r) ∧ t'.mem = u.mem ∧ t'.i = u.i)

/-- A word two registers store is what the very next fetch at its address sees (rule R74). -/
def Obligations.StoredWordIsFetched : Prop :=
  ∀ (s : State) (x r r' : RegIdx), r.toNat + 1 = r'.toNat → r'.toNat ≤ x.toNat →
    ∃ t, exec (.storeRegs x) s = .next t ∧
      ∀ u : State, u.mem = t.mem → u.cfg = t.cfg → u.pc = effAddr s.i r.toNat →
        u.fetchWord.toNat = (s.reg r).toNat * 256 + (s.reg r').toNat

/-- Canonical memories that read the same at every address are equal, whatever the font, so that equal memories
are equal data (the form is log 4). -/
def Obligations.CanonicalMemoryIsUnique : Prop :=
  ∀ (f : FontSet) (m m' : Memory), m.wf f → m'.wf f → (∀ a : Addr, m.read f a = m'.read f a) → m = m'

/-! ### Display -/

/-- Rule R160: clear issues one `DispClear()`, which turns every pixel off; nothing else changes. -/
def Obligations.ClearTurnsPixelsOff : Prop :=
  ∀ s : State, ∃ d : Display,
    exec .clear s = .next { s with
      env := { s.env with display := d, ports := s.env.ports ++ [.dispClear] } } ∧
    (∀ x y : Nat, d.collides x y = false) ∧
    d.width = s.env.display.width ∧ d.height = s.env.display.height ∧ d.edge = s.env.display.edge

/-- draw: one `DispSetPixel` request for each 1 bit of the sprite, row by row, leftmost bit first, with the plain
sums as coordinates and the old registers, each request issued whatever the earlier answers and answered
from the bitmap the earlier ones left; `VF` becomes 1 exactly when some answer is true; nothing else
changes (rules R161, R162). The unreduced
coordinates are the spec's decision D13 (log 14), the wrapping sprite addresses D3 (log 11). -/
def Obligations.DrawRequestsPixels : Prop :=
  ∀ (s : State) (x y : RegIdx) (n : BitVec 4),
    ∃ (pixels : List (Coord × Coord)) (answers : List Bool) (d : Display) (v' : Vector Byte 16),
      exec (.draw x y n) s = .next { s with
        v := v'
        env := { s.env with
          display := d
          ports := s.env.ports ++ List.zipWith (fun p c => .dispSetPixel p.1 p.2 c) pixels answers } } ∧
      d = pixels.foldl (fun d p => d.toggle p.1.toNat p.2.toNat) s.env.display ∧
      answers.length = pixels.length ∧
      (∀ (k : Nat) (p : Coord × Coord), pixels[k]? = some p → answers[k]? = some
        (((pixels.take k).foldl (fun d p => d.toggle p.1.toNat p.2.toNat) s.env.display).collides
          p.1.toNat p.2.toNat)) ∧
      pixels.map (fun p => (p.1.toNat, p.2.toNat)) =
        (List.range n.toNat).flatMap (fun row =>
          ((List.range 8).filter (fun col =>
              (s.readByte (effAddr s.i row)).toNat / 2 ^ (7 - col) % 2 == 1)).map
            (fun col => ((s.reg x).toNat + col, (s.reg y).toNat + row))) ∧
      (∀ r : RegIdx, v'[r.toNat] =
        if r = vF then (if true ∈ answers then 1#8 else 0#8) else s.reg r)

/-- The contract of `DispSetPixel`: the request toggles the pixel the Display associates with the coordinates
and no other, and answers true exactly when that pixel was on before and is off after (rule R216).
Which pixel that is beyond the bitmap is the Display's (D20, log 13). -/
def Obligations.SetPixelTogglesOnePixel : Prop :=
  ∀ (d : Display) (x y q : Nat), d.wf →
    (q ∈ (d.toggle x y).pixels ↔ (if d.pixelAt x y = some q then q ∉ d.pixels else q ∈ d.pixels)) ∧
    (d.collides x y = true ↔
      ∃ p, d.pixelAt x y = some p ∧ p ∈ d.pixels ∧ p ∉ (d.toggle x y).pixels) ∧
    (x < d.width → y < d.height → d.pixelAt x y = some (y * d.width + x))

/-- Drawing the same sprite twice at the same place inside the bitmap of a clear display: the first draw leaves
`VF` 0, the second sets it where the sprite has a 1 bit, and the display is clear again (`S11`, rules
R161, R216). -/
def Obligations.SecondDrawCollides : Prop :=
  ∀ (s : State) (x y : RegIdx) (n : BitVec 4), x ≠ vF → y ≠ vF → s.env.display.pixels = [] →
    (s.reg x).toNat + 7 < s.env.display.width → (s.reg y).toNat + n.toNat ≤ s.env.display.height →
    (∃ row : Nat, row < n.toNat ∧ s.readByte (effAddr s.i row) ≠ 0#8) →
    ∃ t u, exec (.draw x y n) s = .next t ∧ exec (.draw x y n) t = .next u ∧
      t.reg vF = 0#8 ∧ t.env.display.pixels ≠ [] ∧ u.reg vF = 1#8 ∧ u.env.display.pixels = []

/-! ### Keypad and timers -/

/-- skip-key-pressed and skip-key-not-pressed: one query with the full byte `V[x]`; on the same answer exactly
one of the two skips; a scripted answer is the one used; nothing else changes (rules R170, R171). The
unmasked key number and the free answer are the spec's decision D14 (log 15). -/
def Obligations.KeySkips : Prop :=
  ∀ (s : State) (x : RegIdx), ∃ (p : Bool) (rest : List Bool) (d : Nat) (skipped : Addr) (e : Env),
    e = { s.env with
      keyAnswers := rest, draws := d, ports := s.env.ports ++ [.keyPressed (s.reg x) p] } ∧
    skipped.toNat = (s.pc.toNat + 2) % 4096 ∧
    exec (.skipKeyPressed x) s = .next { s with pc := if p then skipped else s.pc, env := e } ∧
    exec (.skipKeyNotPressed x) s = .next { s with pc := if p then s.pc else skipped, env := e } ∧
    (∀ (p' : Bool) (ps : List Bool), s.env.keyAnswers = p' :: ps → p = p' ∧ rest = ps)

/-- Rules R172, R174 and R175: read-delay, set-delay and set-sound; writing one timer leaves the other, and
`sound_active` follows `ST`. -/
def Obligations.TimerInstructions : Prop :=
  ∀ (s : State) (x : RegIdx),
    WritesOnly s (exec (.readDelay x) s) x s.dt.toNat ∧
    exec (.setDelay x) s = .next { s with dt := s.reg x } ∧
    ∃ t, exec (.setSound x) s = .next t ∧ t = { s with st := s.reg x } ∧
      (t.soundActive = true ↔ (s.reg x).toNat ≠ 0)

/-- Rule R173: wait-key captures `x`, enters AwaitingKey and arms the notification once; it writes no register,
and `PC` stays past it. -/
def Obligations.WaitKeyPauses : Prop :=
  ∀ (s : State) (x : RegIdx), ∃ t,
    exec (.waitKey x) s = .next t ∧
    t = { s with
      waitReg := x, mode := .awaitingKey
      env := { s.env with ports := s.env.ports ++ [.armKeyWait] } } ∧
    t.keyWaitArmed = true ∧ (∀ r : RegIdx, t.reg r = s.reg r) ∧ t.pc = s.pc

/-- A key event, in one step: in AwaitingKey it writes its value to `V[WAIT_REG]` and the core runs again; in
the other modes it has no effect; `PC`, the timers, memory and the controller are untouched (rules R199,
R200, R201). The unchecked 8-bit value is the spec's decision D15, the ignored event D26 (log 16). -/
def Obligations.KeyEventResumes : Prop :=
  ∀ (s : State) (k : Byte), s.keyEventDue = some k →
    ∃ (v' : Vector Byte 16) (ts : List (Option Byte)) (d : Nat),
      step s = .next { s with
        v := v'
        mode := if s.mode = .awaitingKey then .running else s.mode
        env := { s.env with turns := ts, draws := d, ports := s.env.ports ++ [.keyEvent k] } } ∧
      ∀ r : RegIdx, v'[r.toNat] =
        if s.mode = .awaitingKey ∧ r = s.waitReg then k else s.reg r

/-! ### The step and the controller -/

/-- A step runs the decoded instruction: with the core Running, the controller in its loop with a step left and
no key event at the boundary, where the bytes at `PC` decode to `i` the step is `exec i` on the state
with `PC` advanced by 2, one step counted and the boundary passed (rules R84, R205). -/
def Obligations.StepRunsDecodedInstruction : Prop :=
  ∀ (s : State) (left : Nat) (i : Instr), s.mode = .running → s.ctl = .loop (left + 1) →
    s.keyEventDue = none → decode [s.readByte s.pc, s.readByte (s.pc + 1#12)] = .ok (i, []) →
    i.wellFormed = true ∧
    step s = exec i { s with
      pc := s.pc + 2#12, ctl := .loop left, env := { s.env with turns := s.env.turns.tail } }

/-- An illegal word: `PC` past it, the record, nothing else; the core Halted under `HALT`, Running under `SKIP`
(rules R191, R193, R209). The record and the policies are the spec's decisions D4 and D5 (logs 8, 12). -/
def Obligations.IllegalWordIsReported : Prop :=
  ∀ (s : State) (left : Nat), s.mode = .running → s.ctl = .loop (left + 1) → s.keyEventDue = none →
    decode [s.readByte s.pc, s.readByte (s.pc + 1#12)] = .error (.unknownOpcode s.fetchWord) →
    step s = .next { s with
      pc := s.pc + 2#12
      fault := some ⟨.unknownOpcode, s.fetchWord, s.pc⟩
      mode := if s.cfg.policy = .halt then .halted else .running
      ctl := .loop left
      env := { s.env with turns := s.env.turns.tail } }

/-- The tick unit: both timers go down by one, not below 0, exactly where the core is Running; nothing else
changes and the render unit follows (rules R203, R205). That both go down at once is the spec's
decision D25. -/
def Obligations.TickDecrementsTimers : Prop :=
  ∀ s : State, s.ctl = .tick → s.keyEventDue = none →
    ∃ (dt' st' : Byte) (ts : List (Option Byte)) (d : Nat),
      step s = .next { s with
        dt := dt', st := st', ctl := .render, env := { s.env with turns := ts, draws := d } } ∧
      (s.mode = .running → dt'.toNat = s.dt.toNat - 1 ∧ st'.toNat = s.st.toNat - 1) ∧
      (s.mode ≠ .running → dt' = s.dt ∧ st' = s.st)

/-- A whole `cycle()` that begins in AwaitingKey, with no key event during it, runs no instruction and does not
tick; it renders and answers, and the state is as before (rule R207). That a host with no request asks for
`cycle()`, and that the cycle is four steps, is the model's choice (log 18) over the spec's units (D16);
the record in the answer is the spec's decision D4 (log 12). A `cycle()` the host asks for begins the same
way (`CycleBegins`). -/
def Obligations.AwaitingCycleOnlyRenders : Prop :=
  ∀ (s : State) (ts : List (Option Byte)), s.mode = .awaitingKey → s.ctl = .idle →
    s.env.requests = [] → s.env.turns = none :: none :: none :: none :: ts →
    Sys2Proof.core.run 4 s = .next { s with
      env := { s.env with turns := ts, ports := s.env.ports ++ [.dispRender, .cycleDone s.fault] } }

/-- A whole `cycle()` in Halted runs no instruction and does not tick; it renders and answers with the record
(rule R208). Halted and the uniform tail are the spec's decisions D4 and D7 (log 12); the four steps, begun with
no request, are the model's choice (log 18). -/
def Obligations.HaltedCycleOnlyRenders : Prop :=
  ∀ s : State, s.mode = .halted → s.ctl = .idle → s.env.requests = [] → s.env.turns = [] →
    Sys2Proof.core.run 4 s = .next { s with
      env := { s.env with ports := s.env.ports ++ [.dispRender, .cycleDone s.fault] } }

/-- Nothing but `initialize()` leaves Halted or changes the core there: any other step from a Halted state
that the machine can reach changes only the controller and the ports (rules R31, R197; the spec's
decision D4, log 12). -/
def Obligations.HaltedIsSticky : Prop :=
  ∀ s t : State, s.Inv → s.mode = .halted → step s = .next t →
    (∀ rs, s.env.requests ≠ .initializeCore :: rs) → t = { s with ctl := t.ctl, env := t.env }

/-- The atomic units of the step carry out `cycle()`: from between two cycles, with no other request and no key
event during the cycle, the machine reaches in at most `SPEED + 4` steps exactly the state the
algorithm of rule R205 gives, less the boundaries passed. The units are log 18, `SPEED` is free
(log 7). -/
def Obligations.StepsCarryOutCycle : Prop :=
  ∀ s t : State, s.ctl.betweenCycles = true → s.env.requests = [] →
    (∀ j : Nat, j < s.cfg.speed + 4 → s.env.turns[j]? = some none) →
    s.wholeCycle = .next t →
    ∃ n : Nat, n ≤ s.cfg.speed + 4 ∧ Sys2Proof.core.run n s =
      .next { t with env := { t.env with turns := s.env.turns.drop n } }

/-- Every `cycle()` completes, issues exactly one `DispRender()`, last before its answer, and the render leaves
the bitmap and the core's state as the loop and the tick left them; and step by step, key events included,
the render unit is the only step that issues one, and the only one that ends a `cycle()` (rules R205,
R206, R208, R217). The render after a fault and in Halted is the spec's decision D7 and the record in the
answer D4 (log 12), the units are D16 (log 18). -/
def Obligations.CycleRendersOnceLast : Prop :=
  (∀ s : State, ∃ (u t : State) (l : List PortEvent),
    State.cycleLoop s.cfg.speed 0 s = .next u ∧ s.wholeCycle = .next t ∧
    .dispRender ∉ l ∧ u.env.ports = s.env.ports ++ l ∧
    t.env.ports = s.env.ports ++ l ++ [.dispRender, .cycleDone t.fault] ∧
    t.env.display = u.env.display ∧ t.v = u.v ∧ t.i = u.i ∧ t.pc = u.pc ∧ t.sp = u.sp ∧
    t.stack = u.stack ∧ t.mem = u.mem ∧ t.mode = u.mode ∧ t.waitReg = u.waitReg ∧ t.fault = u.fault) ∧
  ∀ s t : State, step s = .next t → ∃ l : List PortEvent, t.env.ports = s.env.ports ++ l ∧
    (.dispRender ∈ l → s.ctl = .render ∧ s.keyEventDue = none ∧ t.ctl = .idle ∧
      l = [.dispRender, .cycleDone s.fault] ∧ t.env.display = s.env.display ∧
      t = { s with ctl := .idle, env := t.env }) ∧
    (t.ctl = .idle → s.ctl ≠ .idle → .dispRender ∈ l)

/-- The algorithm is also what the steps carry out where nothing at all is scripted, as at reset, in a `cycle()`
that does not end awaiting a key: no key event is then due (rules R201, R205; the units are the spec's
decision D16, log 18). -/
def Obligations.QuietStepsCarryOutCycle : Prop :=
  ∀ s t : State, s.ctl.betweenCycles = true → s.env.requests = [] → s.env.turns = [] →
    s.wholeCycle = .next t → t.mode ≠ .awaitingKey →
    ∃ n : Nat, n ≤ s.cfg.speed + 4 ∧ Sys2Proof.core.run n s = .next t

/-- `cycle()` begins, asked for by the host or because it asks for nothing else: no step is counted yet, and
nothing of the core changes (rule R205, `count <- 0`; the unit is log 18). -/
def Obligations.CycleBegins : Prop :=
  ∀ s : State, s.ctl.betweenCycles = true → s.keyEventDue = none →
    (s.env.requests = [] ∨ ∃ rs, s.env.requests = .cycle :: rs) →
    ∃ d : Nat, step s = .next { s with
        ctl := .loop s.cfg.speed
        env := { s.env with
          requests := s.env.requests.tail, turns := s.env.turns.tail, draws := d } } ∧
      (s.mode ≠ .awaitingKey → d = s.env.draws)

/-- The failing loop check, not Running or `count = SPEED`: the tick check is next and nothing of the core
changes (rules R205, R206; the unit is the spec's decision D16, log 18). -/
def Obligations.LoopCheckFails : Prop :=
  ∀ (s : State) (left : Nat), s.ctl = .loop left → (s.mode ≠ .running ∨ left = 0) →
    s.keyEventDue = none →
    ∃ d : Nat, step s = .next { s with
        ctl := .tick, env := { s.env with turns := s.env.turns.tail, draws := d } } ∧
      (s.mode ≠ .awaitingKey → d = s.env.draws)

/-- Where in a `cycle()` the awaited key event falls decides what is left of it: before a loop check with steps
left, the very next unit is an instruction step; after the failing loop check, no instruction runs but the
timers tick; after the tick check, they do not (rule R206, cases 1 to 3; the spec's decision D16, log
16). -/
def Obligations.KeyEventPlaceDecidesCycle : Prop :=
  ∀ (s : State) (k : Byte) (ts : List (Option Byte)), s.mode = .awaitingKey →
    s.env.turns = some k :: none :: ts → ∃ u, step s = .next u ∧
    u.mode = .running ∧ u.reg s.waitReg = k ∧ u.pc = s.pc ∧ u.ctl = s.ctl ∧
    (∀ (left : Nat) (i : Instr), s.ctl = .loop (left + 1) → decodeWord s.fetchWord = some i →
      step u = exec i { u with
        pc := s.pc + 2#12, ctl := .loop left, env := { u.env with turns := ts } }) ∧
    (s.ctl = .tick → ∃ t, step u = .next t ∧ t.dt.toNat = s.dt.toNat - 1 ∧
      t.st.toNat = s.st.toNat - 1 ∧ t.pc = s.pc ∧ t.v = u.v ∧ t.mem = s.mem ∧ t.ctl = .render) ∧
    (s.ctl = .render → ∃ t, step u = .next t ∧ t.dt = s.dt ∧ t.st = s.st ∧ t.pc = s.pc ∧ t.v = u.v ∧
      t.mem = s.mem ∧ t.ctl = .idle)

/-- The four error conditions and their codes: three causes of a fault, and the error answer of `loadImage`. The
numbers are the spec's decision D6 (rule R190, log 12). -/
def Obligations.ErrorCodes : Prop :=
  FaultCause.unknownOpcode.code = 1 ∧ FaultCause.stackOverflow.code = 2 ∧
  FaultCause.stackUnderflow.code = 3 ∧ HostError.imageTooLarge.code = 4 ∧
  (∀ c c' : FaultCause, c.code = c'.code → c = c') ∧ ∀ (c : FaultCause) (e : HostError), c.code ≠ e.code

/-! ### Host operations -/

/-- `initialize()`, asked for between two cycles in any mode: every piece of core state takes its reset value,
the font lies at `FONT_BASE`, the window for `loadImage` is open again, and the parameters and the
collaborators are kept (rules R72, R230, R238). All the values but `PC` are the spec's
decisions D8 to D11 (logs 3 to 6), the window D19 (log 19). -/
def Obligations.InitializeResetsCore : Prop :=
  ∀ (s : State) (rs : List HostRequest), s.ctl.betweenCycles = true → s.keyEventDue = none →
    s.env.requests = .initializeCore :: rs →
    ∃ t, step s = .next t ∧ (∀ r : RegIdx, t.reg r = 0#8) ∧ t.i = 0#12 ∧ t.pc = 0x200#12 ∧
      t.sp = 0 ∧ (∀ (k : Nat) (_ : k < 16), t.stack[k] = 0#12) ∧ t.dt = 0#8 ∧ t.st = 0#8 ∧
      t.mode = .running ∧ t.waitReg = 0#4 ∧ t.fault = none ∧ t.soundActive = false ∧
      t.ctl = .ready false ∧
      (∀ a : Addr, t.readByte a =
        if h : s.cfg.fontSet.base.toNat ≤ a.toNat ∧ a.toNat < s.cfg.fontSet.base.toNat + 80 then
          s.cfg.fontSet.bytes[a.toNat - s.cfg.fontSet.base.toNat]'(by omega)
        else 0#8) ∧
      t.cfg = s.cfg ∧ t.env.display = s.env.display ∧ t.env.ports = s.env.ports ∧
      t.env.keyAnswers = s.env.keyAnswers ∧ t.env.randAnswers = s.env.randAnswers ∧
      t.env.requests = rs

/-- `loadImage` after `initialize()`: an image over 3584 bytes is answered `ImageTooLarge` and changes nothing;
any other lies from `0x200` on, in order, no other byte changed, answered `ok`; the core is not
touched (rule R71). The window and the mere answer are the spec's decisions D19 and D27 (log 19). -/
def Obligations.LoadImageCopiesImage : Prop :=
  ∀ (s : State) (bytes : List Byte) (rs : List HostRequest), s.ctl = .ready false →
    s.keyEventDue = none → s.env.requests = .loadImage bytes :: rs →
    ∃ (ts : List (Option Byte)) (d : Nat),
      (bytes.length > 3584 → step s = .next { s with
        env := { s.env with
          requests := rs, turns := ts, draws := d, ports := s.env.ports ++ [.loadFailed .imageTooLarge] } }) ∧
      (bytes.length ≤ 3584 → ∃ m' : Memory,
        step s = .next { s with
          mem := m', ctl := .ready true
          env := { s.env with
            requests := rs, turns := ts, draws := d, ports := s.env.ports ++ [.loadOk] } } ∧
        (∀ (k : Nat) (_ : k < bytes.length),
          m'.read s.cfg.fontSet (BitVec.ofNat 12 (0x200 + k)) = bytes[k]) ∧
        ∀ a : Addr, (a.toNat < 0x200 ∨ 0x200 + bytes.length ≤ a.toNat) →
          m'.read s.cfg.fontSet a = s.readByte a)

/-- `loadImage` after the first `cycle()`, or a second time, is refused by name, and nothing else is: every other
step answers a next state (rules R71, R232, U17). That these uses have no meaning is the spec's decision
D19 (log 19). -/
def Obligations.OnlyLateLoadsAreRefused : Prop :=
  (∀ s : State, (∃ t, step s = .next t) ∨
    ∃ (bytes : List Byte) (rs : List HostRequest), s.env.requests = .loadImage bytes :: rs ∧
      ((s.ctl = .idle ∧ step s = .refused .loadImageAfterCycle) ∨
        (s.ctl = .ready true ∧ step s = .refused .loadImageTwice))) ∧
  ∀ (s : State) (bytes : List Byte) (rs : List HostRequest), s.keyEventDue = none →
    s.env.requests = .loadImage bytes :: rs →
    (s.ctl = .idle → step s = .refused .loadImageAfterCycle) ∧
    (s.ctl = .ready true → step s = .refused .loadImageTwice)

/-- Boot: from reset, with an image to load and any `SPEED` but 0, the first instruction step fetches the first
two bytes of the image at `0x200` (rules R231, R232; log 20). -/
def Obligations.BootFetchesImage : Prop :=
  ∀ (speed : Nat) (b0 b1 : Byte) (bs : List Byte), bs.length + 2 ≤ 3584 →
    ∃ t, Sys2Proof.core.run 2 { State.reset with
        cfg := { State.reset.cfg with speed := speed + 1 }
        env := { State.reset.env with requests := [.loadImage (b0 :: b1 :: bs)] } } = .next t ∧
      t.ctl = .loop (speed + 1) ∧ t.mode = .running ∧ t.pc = 0x200#12 ∧ t.keyEventDue = none ∧
      t.fetchWord.toNat = b0.toNat * 256 + b1.toNat

/-! ### The whole machine -/

/-- Every instruction, from every state, answers a next state: no instruction stops the machine (rule R190: no
access, alignment, arithmetic or register-index fault; the stack faults are next states, log 12). -/
def Obligations.EveryInstructionCompletes : Prop :=
  ∀ (i : Instr) (s : State), ∃ t, exec i s = .next t ∧ t.ctl = s.ctl ∧ t.cfg = s.cfg ∧
    t.env.turns = s.env.turns ∧ t.env.requests = s.env.requests

/-- What each instruction may write: the registers of rule R20's table, `VF` as a flag by six instructions only
(rule R21), and every other piece of state by the instructions the summary table of spec/10_state.md
names. -/
def Obligations.OnlyListedInstructionsWrite : Prop :=
  ∀ (i : Instr) (s t : State), exec i s = .next t →
    (∀ r : RegIdx, t.reg r ≠ s.reg r → i.mayWriteReg r = true) ∧
    (t.i ≠ s.i → (∃ n, i = .loadIndex n) ∨ (∃ x, i = .addIndex x) ∨ ∃ x, i = .fontChar x) ∧
    (t.sp ≠ s.sp → i = .ret ∨ ∃ n, i = .call n) ∧
    (t.stack ≠ s.stack → ∃ n, i = .call n) ∧
    (t.dt ≠ s.dt → ∃ x, i = .setDelay x) ∧
    (t.st ≠ s.st → ∃ x, i = .setSound x) ∧
    (t.mode ≠ s.mode → (∃ x, i = .waitKey x) ∨ i = .ret ∨ ∃ n, i = .call n) ∧
    (t.waitReg ≠ s.waitReg → ∃ x, i = .waitKey x) ∧
    (t.fault ≠ s.fault → i = .ret ∨ ∃ n, i = .call n) ∧
    (t.mem ≠ s.mem → (∃ x, i = .bcd x) ∨ ∃ x, i = .storeRegs x) ∧
    (t.env.display ≠ s.env.display → i = .clear ∨ ∃ x y n, i = .draw x y n)

/-- No instruction sees `ST`, the fault record, `WAIT_REG`, `MODE`, the controller, `SPEED` or the policy: two
states that differ only in these go to states with the same registers, `I`, `PC`, stack, `DT`, memory
and ports (rules R29, R32, R33, R211). -/
def Obligations.InstructionsDoNotSeeControlState : Prop :=
  ∀ (i : Instr) (s t : State) (st' : Byte) (f : Option FaultRecord) (w : RegIdx) (m : Mode) (p : Phase)
    (speed : Nat) (policy : Policy), exec i s = .next t →
    ∃ t', exec i { s with
        st := st', fault := f, waitReg := w, mode := m, ctl := p
        cfg := { s.cfg with speed := speed, policy := policy } } = .next t' ∧
      t'.v = t.v ∧ t'.i = t.i ∧ t'.pc = t.pc ∧ t'.sp = t.sp ∧ t'.stack = t.stack ∧ t'.dt = t.dt ∧
      t'.mem = t.mem ∧ t'.env = t.env

/-- Every change of `MODE` in a step: Running to AwaitingKey by `Fx0A`, AwaitingKey to Running by a key event,
Running to Halted by an instruction fault with its record, and `initialize()`; there is no other
(rule R31). Halted is the spec's decision D4 (log 12). -/
def Obligations.ModeChangesOnlyAsListed : Prop :=
  ∀ s t : State, step s = .next t → t.mode ≠ s.mode →
    (s.mode = .running ∧ t.mode = .awaitingKey ∧
      ∃ x, decodeWord s.fetchWord = some (.waitKey x) ∧ t.waitReg = x) ∨
    (s.mode = .awaitingKey ∧ t.mode = .running ∧
      ∃ k, s.keyEventDue = some k ∧ t.reg s.waitReg = k) ∨
    (s.mode = .running ∧ t.mode = .halted ∧ ∃ c, t.fault = some ⟨c, s.fetchWord, s.pc⟩ ∧
      ((decodeWord s.fetchWord = none ∧ s.cfg.policy = .halt ∧ c = .unknownOpcode) ∨
        (decodeWord s.fetchWord = some .ret ∧ s.sp.val = 0 ∧ c = .stackUnderflow) ∨
        ∃ n, decodeWord s.fetchWord = some (.call n) ∧ s.sp.val = 16 ∧ c = .stackOverflow)) ∨
    (t.mode = .running ∧ s.ctl.betweenCycles = true ∧ ∃ rs, s.env.requests = .initializeCore :: rs)

/-- The timers change in no other way than these: the tick while Running, by exactly one; `Fx15` and `Fx18`, to
the register's value; `initialize()`, to 0 (rules R28, R29, R203). -/
def Obligations.TimersChangeOnlyAsListed : Prop :=
  ∀ s t : State, step s = .next t →
    (t.dt ≠ s.dt →
      (s.ctl = .tick ∧ s.mode = .running ∧ t.dt.toNat + 1 = s.dt.toNat) ∨
      (∃ x, decodeWord s.fetchWord = some (.setDelay x) ∧ t.dt = s.reg x) ∨
      (t.dt = 0#8 ∧ ∃ rs, s.env.requests = .initializeCore :: rs)) ∧
    (t.st ≠ s.st →
      (s.ctl = .tick ∧ s.mode = .running ∧ t.st.toNat + 1 = s.st.toNat) ∨
      (∃ x, decodeWord s.fetchWord = some (.setSound x) ∧ t.st = s.reg x) ∨
      (t.st = 0#8 ∧ ∃ rs, s.env.requests = .initializeCore :: rs))

/-- No step changes a parameter: `SPEED`, the policy, `FONT_BASE`, `FONT` (rules R8, R36). -/
def Obligations.StepKeepsParameters : Prop :=
  ∀ s t : State, step s = .next t → t.cfg = s.cfg

/-- The invariant holds at reset, and after `initialize()` from any state whose font lies in the reserved region
and whose Display keeps the canonical form (rules R8, R39, R230). -/
def Obligations.ResetMeetsInvariant : Prop :=
  State.reset.Inv ∧
  ∀ s : State, s.cfg.fontSet.reserved → s.env.display.wf → s.initialize.Inv

/-- Every step keeps the invariant: the font in the reserved region, memory and bitmap canonical, a record whenever
Halted, the loop within `SPEED`, boot at the entry point (rules R39, R205, R231). -/
def Obligations.StepKeepsInvariant : Prop :=
  ∀ s t : State, s.Inv → step s = .next t → t.Inv
end

