-- ==== Sys2Proof/Laws/Encoding.lean ====
section
/-!
SUPPORT. The bits of the encoder's formats (rule R82), said once for each format, and what the masks of the
opcode map leave of them (rule R86).
-/

namespace Sys2Proof.Laws

/-- The bits of format `NNN`. -/
theorem getLsbD_encodeNNN (op : BitVec 4) (nnn : Addr) (k : Nat) :
    (encodeNNN op nnn).getLsbD k = if k < 12 then nnn.getLsbD k else op.getLsbD (k - 12) :=
  BitVec.getLsbD_append ..

/-- The bits of formats `XKK` and `XFF`. -/
theorem getLsbD_encodeXKK (op : BitVec 4) (x : RegIdx) (kk : Byte) (k : Nat) :
    (encodeXKK op x kk).getLsbD k =
      if k < 8 then kk.getLsbD k else if k - 8 < 4 then x.getLsbD (k - 8) else op.getLsbD (k - 8 - 4) :=
  (BitVec.getLsbD_append ..).trans (by rw [BitVec.getLsbD_append])

/-- The bits of formats `XYN` and `XYF`. -/
theorem getLsbD_encodeXYN (op : BitVec 4) (x y : RegIdx) (n : BitVec 4) (k : Nat) :
    (encodeXYN op x y n).getLsbD k =
      if k < 4 then n.getLsbD k else if k - 4 < 4 then y.getLsbD (k - 4)
      else if k - 4 - 4 < 4 then x.getLsbD (k - 4 - 4) else op.getLsbD (k - 4 - 4 - 4) :=
  (BitVec.getLsbD_append ..).trans (by rw [BitVec.getLsbD_append, BitVec.getLsbD_append])

/-- The bits of a word of two bytes (rule R63). -/
theorem getLsbD_wordOfBytes (hi lo : Byte) (k : Nat) :
    (wordOfBytes hi lo).getLsbD k = if k < 8 then lo.getLsbD k else hi.getLsbD (k - 8) :=
  BitVec.getLsbD_append ..

/-- A word is the word of its two bytes (rule R63). -/
theorem wordOfBytes_hi_lo (w : Word) : wordOfBytes (Word.hi w) (Word.lo w) = w := by
  apply BitVec.eq_of_getLsbD_eq
  intro k hk
  rw [getLsbD_wordOfBytes]
  unfold Word.hi Word.lo
  interval_cases k <;> simp

theorem mask_nnn (op : BitVec 4) (nnn : Addr) :
    encodeNNN op nnn &&& 0xF000#16 = encodeNNN op 0#12 := by
  apply BitVec.eq_of_getLsbD_eq
  intro k hk
  rw [BitVec.getLsbD_and, getLsbD_encodeNNN, getLsbD_encodeNNN]
  interval_cases k <;> simp

theorem mask_xkk (op : BitVec 4) (x : RegIdx) (kk : Byte) :
    encodeXKK op x kk &&& 0xF000#16 = encodeXKK op 0#4 0#8 := by
  apply BitVec.eq_of_getLsbD_eq
  intro k hk
  rw [BitVec.getLsbD_and, getLsbD_encodeXKK, getLsbD_encodeXKK]
  interval_cases k <;> simp

theorem mask_xff (op : BitVec 4) (x : RegIdx) (kk : Byte) :
    encodeXKK op x kk &&& 0xF0FF#16 = encodeXKK op 0#4 kk := by
  apply BitVec.eq_of_getLsbD_eq
  intro k hk
  rw [BitVec.getLsbD_and, getLsbD_encodeXKK, getLsbD_encodeXKK]
  interval_cases k <;> simp

theorem mask_xyf (op : BitVec 4) (x y : RegIdx) (n : BitVec 4) :
    encodeXYN op x y n &&& 0xF00F#16 = encodeXYN op 0#4 0#4 n := by
  apply BitVec.eq_of_getLsbD_eq
  intro k hk
  rw [BitVec.getLsbD_and, getLsbD_encodeXYN, getLsbD_encodeXYN]
  interval_cases k <;> simp

theorem mask_xyn (op : BitVec 4) (x y : RegIdx) (n : BitVec 4) :
    encodeXYN op x y n &&& 0xF000#16 = encodeXYN op 0#4 0#4 0#4 := by
  apply BitVec.eq_of_getLsbD_eq
  intro k hk
  rw [BitVec.getLsbD_and, getLsbD_encodeXYN, getLsbD_encodeXYN]
  interval_cases k <;> simp

end Sys2Proof.Laws
end

