-- ==== Sys2Proof/Laws/State.lean ====
section
/-!
SUPPORT. The fields of the state after each named update: one lemma per field per update. No later
proof unfolds an update.
-/

namespace Sys2Proof.Machine.State

variable (s : State)

/-! ### `setReg` -/

@[simp] theorem setReg_v (x : RegIdx) (b : Byte) : (s.setReg x b).v = s.v.set x.toNat b x.isLt := rfl
@[simp] theorem setReg_i (x : RegIdx) (b : Byte) : (s.setReg x b).i = s.i := rfl
@[simp] theorem setReg_pc (x : RegIdx) (b : Byte) : (s.setReg x b).pc = s.pc := rfl
@[simp] theorem setReg_sp (x : RegIdx) (b : Byte) : (s.setReg x b).sp = s.sp := rfl
@[simp] theorem setReg_stack (x : RegIdx) (b : Byte) : (s.setReg x b).stack = s.stack := rfl
@[simp] theorem setReg_dt (x : RegIdx) (b : Byte) : (s.setReg x b).dt = s.dt := rfl
@[simp] theorem setReg_st (x : RegIdx) (b : Byte) : (s.setReg x b).st = s.st := rfl
@[simp] theorem setReg_mode (x : RegIdx) (b : Byte) : (s.setReg x b).mode = s.mode := rfl
@[simp] theorem setReg_waitReg (x : RegIdx) (b : Byte) : (s.setReg x b).waitReg = s.waitReg := rfl
@[simp] theorem setReg_fault (x : RegIdx) (b : Byte) : (s.setReg x b).fault = s.fault := rfl
@[simp] theorem setReg_mem (x : RegIdx) (b : Byte) : (s.setReg x b).mem = s.mem := rfl
@[simp] theorem setReg_ctl (x : RegIdx) (b : Byte) : (s.setReg x b).ctl = s.ctl := rfl
@[simp] theorem setReg_cfg (x : RegIdx) (b : Byte) : (s.setReg x b).cfg = s.cfg := rfl
@[simp] theorem setReg_env (x : RegIdx) (b : Byte) : (s.setReg x b).env = s.env := rfl

/-! ### `setPc` -/

@[simp] theorem setPc_v (a : Addr) : (s.setPc a).v = s.v := rfl
@[simp] theorem setPc_i (a : Addr) : (s.setPc a).i = s.i := rfl
@[simp] theorem setPc_pc (a : Addr) : (s.setPc a).pc = a := rfl
@[simp] theorem setPc_sp (a : Addr) : (s.setPc a).sp = s.sp := rfl
@[simp] theorem setPc_stack (a : Addr) : (s.setPc a).stack = s.stack := rfl
@[simp] theorem setPc_dt (a : Addr) : (s.setPc a).dt = s.dt := rfl
@[simp] theorem setPc_st (a : Addr) : (s.setPc a).st = s.st := rfl
@[simp] theorem setPc_mode (a : Addr) : (s.setPc a).mode = s.mode := rfl
@[simp] theorem setPc_waitReg (a : Addr) : (s.setPc a).waitReg = s.waitReg := rfl
@[simp] theorem setPc_fault (a : Addr) : (s.setPc a).fault = s.fault := rfl
@[simp] theorem setPc_mem (a : Addr) : (s.setPc a).mem = s.mem := rfl
@[simp] theorem setPc_ctl (a : Addr) : (s.setPc a).ctl = s.ctl := rfl
@[simp] theorem setPc_cfg (a : Addr) : (s.setPc a).cfg = s.cfg := rfl
@[simp] theorem setPc_env (a : Addr) : (s.setPc a).env = s.env := rfl

/-! ### `advance` -/

@[simp] theorem advance_v : (s.advance).v = s.v := rfl
@[simp] theorem advance_i : (s.advance).i = s.i := rfl
@[simp] theorem advance_pc : (s.advance).pc = s.pc + 2#12 := rfl
@[simp] theorem advance_sp : (s.advance).sp = s.sp := rfl
@[simp] theorem advance_stack : (s.advance).stack = s.stack := rfl
@[simp] theorem advance_dt : (s.advance).dt = s.dt := rfl
@[simp] theorem advance_st : (s.advance).st = s.st := rfl
@[simp] theorem advance_mode : (s.advance).mode = s.mode := rfl
@[simp] theorem advance_waitReg : (s.advance).waitReg = s.waitReg := rfl
@[simp] theorem advance_fault : (s.advance).fault = s.fault := rfl
@[simp] theorem advance_mem : (s.advance).mem = s.mem := rfl
@[simp] theorem advance_ctl : (s.advance).ctl = s.ctl := rfl
@[simp] theorem advance_cfg : (s.advance).cfg = s.cfg := rfl
@[simp] theorem advance_env : (s.advance).env = s.env := rfl

/-! ### `setIndex` -/

@[simp] theorem setIndex_v (a : Addr) : (s.setIndex a).v = s.v := rfl
@[simp] theorem setIndex_i (a : Addr) : (s.setIndex a).i = a := rfl
@[simp] theorem setIndex_pc (a : Addr) : (s.setIndex a).pc = s.pc := rfl
@[simp] theorem setIndex_sp (a : Addr) : (s.setIndex a).sp = s.sp := rfl
@[simp] theorem setIndex_stack (a : Addr) : (s.setIndex a).stack = s.stack := rfl
@[simp] theorem setIndex_dt (a : Addr) : (s.setIndex a).dt = s.dt := rfl
@[simp] theorem setIndex_st (a : Addr) : (s.setIndex a).st = s.st := rfl
@[simp] theorem setIndex_mode (a : Addr) : (s.setIndex a).mode = s.mode := rfl
@[simp] theorem setIndex_waitReg (a : Addr) : (s.setIndex a).waitReg = s.waitReg := rfl
@[simp] theorem setIndex_fault (a : Addr) : (s.setIndex a).fault = s.fault := rfl
@[simp] theorem setIndex_mem (a : Addr) : (s.setIndex a).mem = s.mem := rfl
@[simp] theorem setIndex_ctl (a : Addr) : (s.setIndex a).ctl = s.ctl := rfl
@[simp] theorem setIndex_cfg (a : Addr) : (s.setIndex a).cfg = s.cfg := rfl
@[simp] theorem setIndex_env (a : Addr) : (s.setIndex a).env = s.env := rfl

/-! ### `setDelay` -/

@[simp] theorem setDelay_v (b : Byte) : (s.setDelay b).v = s.v := rfl
@[simp] theorem setDelay_i (b : Byte) : (s.setDelay b).i = s.i := rfl
@[simp] theorem setDelay_pc (b : Byte) : (s.setDelay b).pc = s.pc := rfl
@[simp] theorem setDelay_sp (b : Byte) : (s.setDelay b).sp = s.sp := rfl
@[simp] theorem setDelay_stack (b : Byte) : (s.setDelay b).stack = s.stack := rfl
@[simp] theorem setDelay_dt (b : Byte) : (s.setDelay b).dt = b := rfl
@[simp] theorem setDelay_st (b : Byte) : (s.setDelay b).st = s.st := rfl
@[simp] theorem setDelay_mode (b : Byte) : (s.setDelay b).mode = s.mode := rfl
@[simp] theorem setDelay_waitReg (b : Byte) : (s.setDelay b).waitReg = s.waitReg := rfl
@[simp] theorem setDelay_fault (b : Byte) : (s.setDelay b).fault = s.fault := rfl
@[simp] theorem setDelay_mem (b : Byte) : (s.setDelay b).mem = s.mem := rfl
@[simp] theorem setDelay_ctl (b : Byte) : (s.setDelay b).ctl = s.ctl := rfl
@[simp] theorem setDelay_cfg (b : Byte) : (s.setDelay b).cfg = s.cfg := rfl
@[simp] theorem setDelay_env (b : Byte) : (s.setDelay b).env = s.env := rfl

/-! ### `setSound` -/

@[simp] theorem setSound_v (b : Byte) : (s.setSound b).v = s.v := rfl
@[simp] theorem setSound_i (b : Byte) : (s.setSound b).i = s.i := rfl
@[simp] theorem setSound_pc (b : Byte) : (s.setSound b).pc = s.pc := rfl
@[simp] theorem setSound_sp (b : Byte) : (s.setSound b).sp = s.sp := rfl
@[simp] theorem setSound_stack (b : Byte) : (s.setSound b).stack = s.stack := rfl
@[simp] theorem setSound_dt (b : Byte) : (s.setSound b).dt = s.dt := rfl
@[simp] theorem setSound_st (b : Byte) : (s.setSound b).st = b := rfl
@[simp] theorem setSound_mode (b : Byte) : (s.setSound b).mode = s.mode := rfl
@[simp] theorem setSound_waitReg (b : Byte) : (s.setSound b).waitReg = s.waitReg := rfl
@[simp] theorem setSound_fault (b : Byte) : (s.setSound b).fault = s.fault := rfl
@[simp] theorem setSound_mem (b : Byte) : (s.setSound b).mem = s.mem := rfl
@[simp] theorem setSound_ctl (b : Byte) : (s.setSound b).ctl = s.ctl := rfl
@[simp] theorem setSound_cfg (b : Byte) : (s.setSound b).cfg = s.cfg := rfl
@[simp] theorem setSound_env (b : Byte) : (s.setSound b).env = s.env := rfl

/-! ### `writeByte` -/

@[simp] theorem writeByte_v (a : Addr) (b : Byte) : (s.writeByte a b).v = s.v := rfl
@[simp] theorem writeByte_i (a : Addr) (b : Byte) : (s.writeByte a b).i = s.i := rfl
@[simp] theorem writeByte_pc (a : Addr) (b : Byte) : (s.writeByte a b).pc = s.pc := rfl
@[simp] theorem writeByte_sp (a : Addr) (b : Byte) : (s.writeByte a b).sp = s.sp := rfl
@[simp] theorem writeByte_stack (a : Addr) (b : Byte) : (s.writeByte a b).stack = s.stack := rfl
@[simp] theorem writeByte_dt (a : Addr) (b : Byte) : (s.writeByte a b).dt = s.dt := rfl
@[simp] theorem writeByte_st (a : Addr) (b : Byte) : (s.writeByte a b).st = s.st := rfl
@[simp] theorem writeByte_mode (a : Addr) (b : Byte) : (s.writeByte a b).mode = s.mode := rfl
@[simp] theorem writeByte_waitReg (a : Addr) (b : Byte) : (s.writeByte a b).waitReg = s.waitReg := rfl
@[simp] theorem writeByte_fault (a : Addr) (b : Byte) : (s.writeByte a b).fault = s.fault := rfl
@[simp] theorem writeByte_mem (a : Addr) (b : Byte) : (s.writeByte a b).mem = s.mem.write s.cfg.fontSet a b := rfl
@[simp] theorem writeByte_ctl (a : Addr) (b : Byte) : (s.writeByte a b).ctl = s.ctl := rfl
@[simp] theorem writeByte_cfg (a : Addr) (b : Byte) : (s.writeByte a b).cfg = s.cfg := rfl
@[simp] theorem writeByte_env (a : Addr) (b : Byte) : (s.writeByte a b).env = s.env := rfl

/-! ### `setEnv` -/

@[simp] theorem setEnv_v (e : Env) : (s.setEnv e).v = s.v := rfl
@[simp] theorem setEnv_i (e : Env) : (s.setEnv e).i = s.i := rfl
@[simp] theorem setEnv_pc (e : Env) : (s.setEnv e).pc = s.pc := rfl
@[simp] theorem setEnv_sp (e : Env) : (s.setEnv e).sp = s.sp := rfl
@[simp] theorem setEnv_stack (e : Env) : (s.setEnv e).stack = s.stack := rfl
@[simp] theorem setEnv_dt (e : Env) : (s.setEnv e).dt = s.dt := rfl
@[simp] theorem setEnv_st (e : Env) : (s.setEnv e).st = s.st := rfl
@[simp] theorem setEnv_mode (e : Env) : (s.setEnv e).mode = s.mode := rfl
@[simp] theorem setEnv_waitReg (e : Env) : (s.setEnv e).waitReg = s.waitReg := rfl
@[simp] theorem setEnv_fault (e : Env) : (s.setEnv e).fault = s.fault := rfl
@[simp] theorem setEnv_mem (e : Env) : (s.setEnv e).mem = s.mem := rfl
@[simp] theorem setEnv_ctl (e : Env) : (s.setEnv e).ctl = s.ctl := rfl
@[simp] theorem setEnv_cfg (e : Env) : (s.setEnv e).cfg = s.cfg := rfl
@[simp] theorem setEnv_env (e : Env) : (s.setEnv e).env = e := rfl

/-! ### `setCtl` -/

@[simp] theorem setCtl_v (p : Phase) : (s.setCtl p).v = s.v := rfl
@[simp] theorem setCtl_i (p : Phase) : (s.setCtl p).i = s.i := rfl
@[simp] theorem setCtl_pc (p : Phase) : (s.setCtl p).pc = s.pc := rfl
@[simp] theorem setCtl_sp (p : Phase) : (s.setCtl p).sp = s.sp := rfl
@[simp] theorem setCtl_stack (p : Phase) : (s.setCtl p).stack = s.stack := rfl
@[simp] theorem setCtl_dt (p : Phase) : (s.setCtl p).dt = s.dt := rfl
@[simp] theorem setCtl_st (p : Phase) : (s.setCtl p).st = s.st := rfl
@[simp] theorem setCtl_mode (p : Phase) : (s.setCtl p).mode = s.mode := rfl
@[simp] theorem setCtl_waitReg (p : Phase) : (s.setCtl p).waitReg = s.waitReg := rfl
@[simp] theorem setCtl_fault (p : Phase) : (s.setCtl p).fault = s.fault := rfl
@[simp] theorem setCtl_mem (p : Phase) : (s.setCtl p).mem = s.mem := rfl
@[simp] theorem setCtl_ctl (p : Phase) : (s.setCtl p).ctl = p := rfl
@[simp] theorem setCtl_cfg (p : Phase) : (s.setCtl p).cfg = s.cfg := rfl
@[simp] theorem setCtl_env (p : Phase) : (s.setCtl p).env = s.env := rfl

/-! ### `push` -/

@[simp] theorem push_v (a : Addr) (h : s.sp.val < 16) : (s.push a h).v = s.v := rfl
@[simp] theorem push_i (a : Addr) (h : s.sp.val < 16) : (s.push a h).i = s.i := rfl
@[simp] theorem push_pc (a : Addr) (h : s.sp.val < 16) : (s.push a h).pc = s.pc := rfl
@[simp] theorem push_sp (a : Addr) (h : s.sp.val < 16) : (s.push a h).sp = ⟨s.sp.val + 1, by omega⟩ := rfl
@[simp] theorem push_stack (a : Addr) (h : s.sp.val < 16) : (s.push a h).stack = s.stack.set s.sp.val a h := rfl
@[simp] theorem push_dt (a : Addr) (h : s.sp.val < 16) : (s.push a h).dt = s.dt := rfl
@[simp] theorem push_st (a : Addr) (h : s.sp.val < 16) : (s.push a h).st = s.st := rfl
@[simp] theorem push_mode (a : Addr) (h : s.sp.val < 16) : (s.push a h).mode = s.mode := rfl
@[simp] theorem push_waitReg (a : Addr) (h : s.sp.val < 16) : (s.push a h).waitReg = s.waitReg := rfl
@[simp] theorem push_fault (a : Addr) (h : s.sp.val < 16) : (s.push a h).fault = s.fault := rfl
@[simp] theorem push_mem (a : Addr) (h : s.sp.val < 16) : (s.push a h).mem = s.mem := rfl
@[simp] theorem push_ctl (a : Addr) (h : s.sp.val < 16) : (s.push a h).ctl = s.ctl := rfl
@[simp] theorem push_cfg (a : Addr) (h : s.sp.val < 16) : (s.push a h).cfg = s.cfg := rfl
@[simp] theorem push_env (a : Addr) (h : s.sp.val < 16) : (s.push a h).env = s.env := rfl

/-! ### `drop` -/

@[simp] theorem drop_v : (s.drop).v = s.v := rfl
@[simp] theorem drop_i : (s.drop).i = s.i := rfl
@[simp] theorem drop_pc : (s.drop).pc = s.pc := rfl
@[simp] theorem drop_sp : (s.drop).sp = ⟨s.sp.val - 1, by omega⟩ := rfl
@[simp] theorem drop_stack : (s.drop).stack = s.stack := rfl
@[simp] theorem drop_dt : (s.drop).dt = s.dt := rfl
@[simp] theorem drop_st : (s.drop).st = s.st := rfl
@[simp] theorem drop_mode : (s.drop).mode = s.mode := rfl
@[simp] theorem drop_waitReg : (s.drop).waitReg = s.waitReg := rfl
@[simp] theorem drop_fault : (s.drop).fault = s.fault := rfl
@[simp] theorem drop_mem : (s.drop).mem = s.mem := rfl
@[simp] theorem drop_ctl : (s.drop).ctl = s.ctl := rfl
@[simp] theorem drop_cfg : (s.drop).cfg = s.cfg := rfl
@[simp] theorem drop_env : (s.drop).env = s.env := rfl

/-! ### `recordFault` -/

@[simp] theorem recordFault_v (c : FaultCause) (w : Word) (a : Addr) : (s.recordFault c w a).v = s.v := rfl
@[simp] theorem recordFault_i (c : FaultCause) (w : Word) (a : Addr) : (s.recordFault c w a).i = s.i := rfl
@[simp] theorem recordFault_pc (c : FaultCause) (w : Word) (a : Addr) : (s.recordFault c w a).pc = s.pc := rfl
@[simp] theorem recordFault_sp (c : FaultCause) (w : Word) (a : Addr) : (s.recordFault c w a).sp = s.sp := rfl
@[simp] theorem recordFault_stack (c : FaultCause) (w : Word) (a : Addr) : (s.recordFault c w a).stack = s.stack := rfl
@[simp] theorem recordFault_dt (c : FaultCause) (w : Word) (a : Addr) : (s.recordFault c w a).dt = s.dt := rfl
@[simp] theorem recordFault_st (c : FaultCause) (w : Word) (a : Addr) : (s.recordFault c w a).st = s.st := rfl
@[simp] theorem recordFault_mode (c : FaultCause) (w : Word) (a : Addr) : (s.recordFault c w a).mode = s.mode := rfl
@[simp] theorem recordFault_waitReg (c : FaultCause) (w : Word) (a : Addr) : (s.recordFault c w a).waitReg = s.waitReg := rfl
@[simp] theorem recordFault_fault (c : FaultCause) (w : Word) (a : Addr) : (s.recordFault c w a).fault = some ⟨c, w, a⟩ := rfl
@[simp] theorem recordFault_mem (c : FaultCause) (w : Word) (a : Addr) : (s.recordFault c w a).mem = s.mem := rfl
@[simp] theorem recordFault_ctl (c : FaultCause) (w : Word) (a : Addr) : (s.recordFault c w a).ctl = s.ctl := rfl
@[simp] theorem recordFault_cfg (c : FaultCause) (w : Word) (a : Addr) : (s.recordFault c w a).cfg = s.cfg := rfl
@[simp] theorem recordFault_env (c : FaultCause) (w : Word) (a : Addr) : (s.recordFault c w a).env = s.env := rfl

/-! ### `raiseFault` -/

@[simp] theorem raiseFault_v (c : FaultCause) (w : Word) (a : Addr) : (s.raiseFault c w a).v = s.v := rfl
@[simp] theorem raiseFault_i (c : FaultCause) (w : Word) (a : Addr) : (s.raiseFault c w a).i = s.i := rfl
@[simp] theorem raiseFault_pc (c : FaultCause) (w : Word) (a : Addr) : (s.raiseFault c w a).pc = s.pc := rfl
@[simp] theorem raiseFault_sp (c : FaultCause) (w : Word) (a : Addr) : (s.raiseFault c w a).sp = s.sp := rfl
@[simp] theorem raiseFault_stack (c : FaultCause) (w : Word) (a : Addr) : (s.raiseFault c w a).stack = s.stack := rfl
@[simp] theorem raiseFault_dt (c : FaultCause) (w : Word) (a : Addr) : (s.raiseFault c w a).dt = s.dt := rfl
@[simp] theorem raiseFault_st (c : FaultCause) (w : Word) (a : Addr) : (s.raiseFault c w a).st = s.st := rfl
@[simp] theorem raiseFault_mode (c : FaultCause) (w : Word) (a : Addr) : (s.raiseFault c w a).mode = .halted := rfl
@[simp] theorem raiseFault_waitReg (c : FaultCause) (w : Word) (a : Addr) : (s.raiseFault c w a).waitReg = s.waitReg := rfl
@[simp] theorem raiseFault_fault (c : FaultCause) (w : Word) (a : Addr) : (s.raiseFault c w a).fault = some ⟨c, w, a⟩ := rfl
@[simp] theorem raiseFault_mem (c : FaultCause) (w : Word) (a : Addr) : (s.raiseFault c w a).mem = s.mem := rfl
@[simp] theorem raiseFault_ctl (c : FaultCause) (w : Word) (a : Addr) : (s.raiseFault c w a).ctl = s.ctl := rfl
@[simp] theorem raiseFault_cfg (c : FaultCause) (w : Word) (a : Addr) : (s.raiseFault c w a).cfg = s.cfg := rfl
@[simp] theorem raiseFault_env (c : FaultCause) (w : Word) (a : Addr) : (s.raiseFault c w a).env = s.env := rfl

/-! ### `awaitKey` -/

@[simp] theorem awaitKey_v (x : RegIdx) : (s.awaitKey x).v = s.v := rfl
@[simp] theorem awaitKey_i (x : RegIdx) : (s.awaitKey x).i = s.i := rfl
@[simp] theorem awaitKey_pc (x : RegIdx) : (s.awaitKey x).pc = s.pc := rfl
@[simp] theorem awaitKey_sp (x : RegIdx) : (s.awaitKey x).sp = s.sp := rfl
@[simp] theorem awaitKey_stack (x : RegIdx) : (s.awaitKey x).stack = s.stack := rfl
@[simp] theorem awaitKey_dt (x : RegIdx) : (s.awaitKey x).dt = s.dt := rfl
@[simp] theorem awaitKey_st (x : RegIdx) : (s.awaitKey x).st = s.st := rfl
@[simp] theorem awaitKey_mode (x : RegIdx) : (s.awaitKey x).mode = .awaitingKey := rfl
@[simp] theorem awaitKey_waitReg (x : RegIdx) : (s.awaitKey x).waitReg = x := rfl
@[simp] theorem awaitKey_fault (x : RegIdx) : (s.awaitKey x).fault = s.fault := rfl
@[simp] theorem awaitKey_mem (x : RegIdx) : (s.awaitKey x).mem = s.mem := rfl
@[simp] theorem awaitKey_ctl (x : RegIdx) : (s.awaitKey x).ctl = s.ctl := rfl
@[simp] theorem awaitKey_cfg (x : RegIdx) : (s.awaitKey x).cfg = s.cfg := rfl
@[simp] theorem awaitKey_env (x : RegIdx) : (s.awaitKey x).env = s.env := rfl

/-! ### `tickTimers` -/

@[simp] theorem tickTimers_v : (s.tickTimers).v = s.v := rfl
@[simp] theorem tickTimers_i : (s.tickTimers).i = s.i := rfl
@[simp] theorem tickTimers_pc : (s.tickTimers).pc = s.pc := rfl
@[simp] theorem tickTimers_sp : (s.tickTimers).sp = s.sp := rfl
@[simp] theorem tickTimers_stack : (s.tickTimers).stack = s.stack := rfl
@[simp] theorem tickTimers_dt : (s.tickTimers).dt = countDown s.dt := rfl
@[simp] theorem tickTimers_st : (s.tickTimers).st = countDown s.st := rfl
@[simp] theorem tickTimers_mode : (s.tickTimers).mode = s.mode := rfl
@[simp] theorem tickTimers_waitReg : (s.tickTimers).waitReg = s.waitReg := rfl
@[simp] theorem tickTimers_fault : (s.tickTimers).fault = s.fault := rfl
@[simp] theorem tickTimers_mem : (s.tickTimers).mem = s.mem := rfl
@[simp] theorem tickTimers_ctl : (s.tickTimers).ctl = s.ctl := rfl
@[simp] theorem tickTimers_cfg : (s.tickTimers).cfg = s.cfg := rfl
@[simp] theorem tickTimers_env : (s.tickTimers).env = s.env := rfl

/-! ### `skipIf` -/

@[simp] theorem skipIf_v (c : Bool) : (s.skipIf c).v = s.v := by cases c <;> rfl
@[simp] theorem skipIf_i (c : Bool) : (s.skipIf c).i = s.i := by cases c <;> rfl
@[simp] theorem skipIf_pc (c : Bool) : (s.skipIf c).pc = if c then s.pc + 2#12 else s.pc := by
  cases c <;> rfl
@[simp] theorem skipIf_sp (c : Bool) : (s.skipIf c).sp = s.sp := by cases c <;> rfl
@[simp] theorem skipIf_stack (c : Bool) : (s.skipIf c).stack = s.stack := by cases c <;> rfl
@[simp] theorem skipIf_dt (c : Bool) : (s.skipIf c).dt = s.dt := by cases c <;> rfl
@[simp] theorem skipIf_st (c : Bool) : (s.skipIf c).st = s.st := by cases c <;> rfl
@[simp] theorem skipIf_mode (c : Bool) : (s.skipIf c).mode = s.mode := by cases c <;> rfl
@[simp] theorem skipIf_waitReg (c : Bool) : (s.skipIf c).waitReg = s.waitReg := by cases c <;> rfl
@[simp] theorem skipIf_fault (c : Bool) : (s.skipIf c).fault = s.fault := by cases c <;> rfl
@[simp] theorem skipIf_mem (c : Bool) : (s.skipIf c).mem = s.mem := by cases c <;> rfl
@[simp] theorem skipIf_ctl (c : Bool) : (s.skipIf c).ctl = s.ctl := by cases c <;> rfl
@[simp] theorem skipIf_cfg (c : Bool) : (s.skipIf c).cfg = s.cfg := by cases c <;> rfl
@[simp] theorem skipIf_env (c : Bool) : (s.skipIf c).env = s.env := by cases c <;> rfl

/-! ### `unknownOpcode` -/

@[simp] theorem unknownOpcode_v (w : Word) (a : Addr) : (s.unknownOpcode w a).v = s.v := by
  unfold unknownOpcode; split <;> rfl
@[simp] theorem unknownOpcode_i (w : Word) (a : Addr) : (s.unknownOpcode w a).i = s.i := by
  unfold unknownOpcode; split <;> rfl
@[simp] theorem unknownOpcode_pc (w : Word) (a : Addr) : (s.unknownOpcode w a).pc = s.pc := by
  unfold unknownOpcode; split <;> rfl
@[simp] theorem unknownOpcode_sp (w : Word) (a : Addr) : (s.unknownOpcode w a).sp = s.sp := by
  unfold unknownOpcode; split <;> rfl
@[simp] theorem unknownOpcode_stack (w : Word) (a : Addr) : (s.unknownOpcode w a).stack = s.stack := by
  unfold unknownOpcode; split <;> rfl
@[simp] theorem unknownOpcode_dt (w : Word) (a : Addr) : (s.unknownOpcode w a).dt = s.dt := by
  unfold unknownOpcode; split <;> rfl
@[simp] theorem unknownOpcode_st (w : Word) (a : Addr) : (s.unknownOpcode w a).st = s.st := by
  unfold unknownOpcode; split <;> rfl
@[simp] theorem unknownOpcode_mode (w : Word) (a : Addr) :
    (s.unknownOpcode w a).mode = if s.cfg.policy = .halt then .halted else s.mode := by
  unfold unknownOpcode; split <;> simp_all
@[simp] theorem unknownOpcode_waitReg (w : Word) (a : Addr) : (s.unknownOpcode w a).waitReg = s.waitReg := by
  unfold unknownOpcode; split <;> rfl
@[simp] theorem unknownOpcode_fault (w : Word) (a : Addr) :
    (s.unknownOpcode w a).fault = some ⟨.unknownOpcode, w, a⟩ := by
  unfold unknownOpcode; split <;> rfl
@[simp] theorem unknownOpcode_mem (w : Word) (a : Addr) : (s.unknownOpcode w a).mem = s.mem := by
  unfold unknownOpcode; split <;> rfl
@[simp] theorem unknownOpcode_ctl (w : Word) (a : Addr) : (s.unknownOpcode w a).ctl = s.ctl := by
  unfold unknownOpcode; split <;> rfl
@[simp] theorem unknownOpcode_cfg (w : Word) (a : Addr) : (s.unknownOpcode w a).cfg = s.cfg := by
  unfold unknownOpcode; split <;> rfl
@[simp] theorem unknownOpcode_env (w : Word) (a : Addr) : (s.unknownOpcode w a).env = s.env := by
  unfold unknownOpcode; split <;> rfl

/-! ### `resume` -/

@[simp] theorem resume_v (k : Byte) : (s.resume k).v =
    if s.mode = .awaitingKey then s.v.set s.waitReg.toNat k s.waitReg.isLt else s.v := by
  unfold resume; split <;> rfl
@[simp] theorem resume_i (k : Byte) : (s.resume k).i = s.i := by unfold resume; split <;> rfl
@[simp] theorem resume_pc (k : Byte) : (s.resume k).pc = s.pc := by unfold resume; split <;> rfl
@[simp] theorem resume_sp (k : Byte) : (s.resume k).sp = s.sp := by unfold resume; split <;> rfl
@[simp] theorem resume_stack (k : Byte) : (s.resume k).stack = s.stack := by unfold resume; split <;> rfl
@[simp] theorem resume_dt (k : Byte) : (s.resume k).dt = s.dt := by unfold resume; split <;> rfl
@[simp] theorem resume_st (k : Byte) : (s.resume k).st = s.st := by unfold resume; split <;> rfl
@[simp] theorem resume_mode (k : Byte) :
    (s.resume k).mode = if s.mode = .awaitingKey then .running else s.mode := by
  unfold resume; split <;> rfl
@[simp] theorem resume_waitReg (k : Byte) : (s.resume k).waitReg = s.waitReg := by unfold resume; split <;> rfl
@[simp] theorem resume_fault (k : Byte) : (s.resume k).fault = s.fault := by unfold resume; split <;> rfl
@[simp] theorem resume_mem (k : Byte) : (s.resume k).mem = s.mem := by unfold resume; split <;> rfl
@[simp] theorem resume_ctl (k : Byte) : (s.resume k).ctl = s.ctl := by unfold resume; split <;> rfl
@[simp] theorem resume_cfg (k : Byte) : (s.resume k).cfg = s.cfg := by unfold resume; split <;> rfl
@[simp] theorem resume_env (k : Byte) : (s.resume k).env = s.env := by unfold resume; split <;> rfl

/-! ### `initialize` -/

@[simp] theorem initialize_v : s.initialize.v = State.reset.v := rfl
@[simp] theorem initialize_i : s.initialize.i = State.reset.i := rfl
@[simp] theorem initialize_pc : s.initialize.pc = State.reset.pc := rfl
@[simp] theorem initialize_sp : s.initialize.sp = State.reset.sp := rfl
@[simp] theorem initialize_stack : s.initialize.stack = State.reset.stack := rfl
@[simp] theorem initialize_dt : s.initialize.dt = State.reset.dt := rfl
@[simp] theorem initialize_st : s.initialize.st = State.reset.st := rfl
@[simp] theorem initialize_mode : s.initialize.mode = State.reset.mode := rfl
@[simp] theorem initialize_waitReg : s.initialize.waitReg = State.reset.waitReg := rfl
@[simp] theorem initialize_fault : s.initialize.fault = State.reset.fault := rfl
@[simp] theorem initialize_mem : s.initialize.mem = State.reset.mem := rfl
@[simp] theorem initialize_ctl : s.initialize.ctl = State.reset.ctl := rfl
@[simp] theorem initialize_cfg : s.initialize.cfg = s.cfg := rfl
@[simp] theorem initialize_env : s.initialize.env = s.env := rfl

/-! ### `storeRange` and `loadRange` -/

@[simp] theorem storeRange_v (n : Nat) : (s.storeRange n).v = s.v := by
  induction n with
  | zero => rfl
  | succ n ih => exact ih
@[simp] theorem storeRange_i (n : Nat) : (s.storeRange n).i = s.i := by
  induction n with
  | zero => rfl
  | succ n ih => exact ih
@[simp] theorem storeRange_pc (n : Nat) : (s.storeRange n).pc = s.pc := by
  induction n with
  | zero => rfl
  | succ n ih => exact ih
@[simp] theorem storeRange_sp (n : Nat) : (s.storeRange n).sp = s.sp := by
  induction n with
  | zero => rfl
  | succ n ih => exact ih
@[simp] theorem storeRange_stack (n : Nat) : (s.storeRange n).stack = s.stack := by
  induction n with
  | zero => rfl
  | succ n ih => exact ih
@[simp] theorem storeRange_dt (n : Nat) : (s.storeRange n).dt = s.dt := by
  induction n with
  | zero => rfl
  | succ n ih => exact ih
@[simp] theorem storeRange_st (n : Nat) : (s.storeRange n).st = s.st := by
  induction n with
  | zero => rfl
  | succ n ih => exact ih
@[simp] theorem storeRange_mode (n : Nat) : (s.storeRange n).mode = s.mode := by
  induction n with
  | zero => rfl
  | succ n ih => exact ih
@[simp] theorem storeRange_waitReg (n : Nat) : (s.storeRange n).waitReg = s.waitReg := by
  induction n with
  | zero => rfl
  | succ n ih => exact ih
@[simp] theorem storeRange_fault (n : Nat) : (s.storeRange n).fault = s.fault := by
  induction n with
  | zero => rfl
  | succ n ih => exact ih
@[simp] theorem storeRange_ctl (n : Nat) : (s.storeRange n).ctl = s.ctl := by
  induction n with
  | zero => rfl
  | succ n ih => exact ih
@[simp] theorem storeRange_cfg (n : Nat) : (s.storeRange n).cfg = s.cfg := by
  induction n with
  | zero => rfl
  | succ n ih => exact ih
@[simp] theorem storeRange_env (n : Nat) : (s.storeRange n).env = s.env := by
  induction n with
  | zero => rfl
  | succ n ih => exact ih
@[simp] theorem loadRange_i (n : Nat) : (s.loadRange n).i = s.i := by
  induction n with
  | zero => rfl
  | succ n ih => exact ih
@[simp] theorem loadRange_pc (n : Nat) : (s.loadRange n).pc = s.pc := by
  induction n with
  | zero => rfl
  | succ n ih => exact ih
@[simp] theorem loadRange_sp (n : Nat) : (s.loadRange n).sp = s.sp := by
  induction n with
  | zero => rfl
  | succ n ih => exact ih
@[simp] theorem loadRange_stack (n : Nat) : (s.loadRange n).stack = s.stack := by
  induction n with
  | zero => rfl
  | succ n ih => exact ih
@[simp] theorem loadRange_dt (n : Nat) : (s.loadRange n).dt = s.dt := by
  induction n with
  | zero => rfl
  | succ n ih => exact ih
@[simp] theorem loadRange_st (n : Nat) : (s.loadRange n).st = s.st := by
  induction n with
  | zero => rfl
  | succ n ih => exact ih
@[simp] theorem loadRange_mode (n : Nat) : (s.loadRange n).mode = s.mode := by
  induction n with
  | zero => rfl
  | succ n ih => exact ih
@[simp] theorem loadRange_waitReg (n : Nat) : (s.loadRange n).waitReg = s.waitReg := by
  induction n with
  | zero => rfl
  | succ n ih => exact ih
@[simp] theorem loadRange_fault (n : Nat) : (s.loadRange n).fault = s.fault := by
  induction n with
  | zero => rfl
  | succ n ih => exact ih
@[simp] theorem loadRange_mem (n : Nat) : (s.loadRange n).mem = s.mem := by
  induction n with
  | zero => rfl
  | succ n ih => exact ih
@[simp] theorem loadRange_ctl (n : Nat) : (s.loadRange n).ctl = s.ctl := by
  induction n with
  | zero => rfl
  | succ n ih => exact ih
@[simp] theorem loadRange_cfg (n : Nat) : (s.loadRange n).cfg = s.cfg := by
  induction n with
  | zero => rfl
  | succ n ih => exact ih
@[simp] theorem loadRange_env (n : Nat) : (s.loadRange n).env = s.env := by
  induction n with
  | zero => rfl
  | succ n ih => exact ih

/-! ### `reg` -/

/-- A register after a write: the value written at its own number, the old value elsewhere (rule R20). -/
@[simp] theorem reg_setReg (x y : RegIdx) (b : Byte) :
    (s.setReg x b).reg y = if x = y then b else s.reg y := by
  simp only [reg, setReg_v, Vector.getElem_set]
  congr 1
  exact propext BitVec.toNat_inj

/-- A register is a component of `v`. -/
theorem reg_eq (x : RegIdx) : s.reg x = s.v[x.toNat] := rfl

/-- Two states with the same registers read the same. -/
theorem reg_congr {s t : State} (h : s.v = t.v) (x : RegIdx) : s.reg x = t.reg x := by
  simp only [reg, h]

end Sys2Proof.Machine.State
end

