-- ==== Sys2Proof/Laws/Memory.lean ====
section
/-!
SUPPORT. What the memory operations do: read after write, and that every one of them keeps the canonical
form (rules R61, R67).
-/

namespace Sys2Proof.Machine.Memory

variable (f : FontSet)

/-! ### Reading after writing -/

theorem lookup_filter_ne (m : Memory) (a b : Nat) :
    Memory.lookup f (m.filter (fun c => c.1 ≠ a)) b =
      if b = a then Memory.unlisted f b else Memory.lookup f m b := by
  induction m with
  | nil => simp [lookup]
  | cons c m ih =>
    by_cases hc : c.1 = a <;> by_cases hb : b = a <;> simp_all [lookup]
    exact fun h => absurd h.symm hb

theorem lookup_insertCell (c : Host.Cell) (m : Memory) (a : Nat) (fresh : ∀ d ∈ m, d.1 ≠ c.1) :
    Memory.lookup f (Memory.insertCell c m) a = if a = c.1 then c.2 else Memory.lookup f m a := by
  induction m with
  | nil => simp [insertCell, lookup, eq_comm]
  | cons d m ih =>
    have hd : d.1 ≠ c.1 := fresh d (by simp)
    have ih := ih (fun e he => fresh e (by simp [he]))
    by_cases hlt : c.1 < d.1
    · simp [insertCell, hlt, lookup, eq_comm]
    · simp only [insertCell, hlt, if_false, lookup, ih]
      by_cases hda : d.1 = a
      · simp [hda, show a ≠ c.1 from hda ▸ hd]
      · simp [hda]

theorem fresh_filter (m : Memory) (a : Nat) :
    ∀ d ∈ m.filter (fun c => c.1 ≠ a), d.1 ≠ a := by
  intro d hd
  simpa using (List.mem_filter.mp hd).2

/-- A read after a write gives the value written at the same address and the old value elsewhere, in
every memory (rule R67). -/
theorem lookup_store (m : Memory) (a b : Nat) (v : Byte) :
    Memory.lookup f (m.store f a v) b = if b = a then v else Memory.lookup f m b := by
  unfold store
  split
  · rename_i h
    rw [lookup_filter_ne]
    by_cases hb : b = a <;> simp [hb, h]
  · rw [lookup_insertCell _ _ _ _ (fresh_filter m a), lookup_filter_ne]
    by_cases hb : b = a <;> simp [hb]

/-- The same on 12-bit addresses (rules R61, R67). -/
@[simp] theorem read_write (m : Memory) (a b : Addr) (v : Byte) :
    (m.write f a v).read f b = if b = a then v else m.read f b := by
  simp only [read, write, lookup_store, BitVec.toNat_inj]

/-- Where the font lies, an unlisted address reads as the font's byte (rule R72). -/
theorem unlisted_font (k : Nat) (hk : k < 80) : Memory.unlisted f (f.base.toNat + k) = f.bytes[k] := by
  simp [unlisted, hk]

/-- Elsewhere an unlisted address reads as zero (rule R230). -/
theorem unlisted_elsewhere (a : Nat) (h : a < f.base.toNat ∨ f.base.toNat + 80 ≤ a) :
    Memory.unlisted f a = 0#8 := by
  rw [unlisted, dif_neg (by omega)]

/-- Reading empty memory gives the reset contents. -/
@[simp] theorem read_nil (a : Addr) : Memory.read [] f a = Memory.unlisted f a.toNat := rfl

/-- Bytes written at consecutive addresses read back in order, and nothing else changes
(rules R66, R71). -/
theorem read_writeBytes (bs : List Byte) : ∀ (m : Memory) (a b : Addr), bs.length ≤ 4096 →
    (m.writeBytes f a bs).read f b = (bs[(b - a).toNat]?).getD (m.read f b) := by
  induction bs with
  | nil => intro m a b _; simp [writeBytes]
  | cons v bs ih =>
    intro m a b hlen
    simp only [List.length_cons] at hlen
    rw [writeBytes, ih _ _ _ (by omega), read_write]
    by_cases hb : b = a
    · subst hb
      have h : (b - (b + 1#12)).toNat = 4095 := by
        rw [show b - (b + 1#12) = 4095#12 by ring_nf; decide]; rfl
      rw [h, List.getElem?_eq_none (by omega)]
      simp
    · have hne : b - a ≠ 0#12 := fun h => hb (by rw [BitVec.sub_eq_iff_eq_add] at h; simpa using h)
      have hpos : 0 < (b - a).toNat := by
        rcases Nat.eq_zero_or_pos (b - a).toNat with h | h
        · exact absurd (BitVec.eq_of_toNat_eq (by simpa using h)) hne
        · exact h
      have hs : (b - (a + 1#12)).toNat = (b - a).toNat - 1 := by
        rw [show b - (a + 1#12) = (b - a) - 1#12 by ring]
        generalize b - a = d at hpos
        have := d.isLt
        simp only [BitVec.toNat_sub, BitVec.toNat_ofNat]
        omega
      simp only [hb, if_false]
      rw [hs, show (b - a).toNat = ((b - a).toNat - 1) + 1 by omega, List.getElem?_cons_succ,
        Nat.add_sub_cancel]

/-! ### The canonical form -/

/-- Empty memory is canonical. -/
theorem wf_nil : Memory.wf [] f := by simp [Memory.wf]

theorem pairwise_insertCell (c : Host.Cell) (m : Memory) (h : m.Pairwise (fun c d => c.1 < d.1))
    (fresh : ∀ d ∈ m, d.1 ≠ c.1) : (Memory.insertCell c m).Pairwise (fun c d => c.1 < d.1) ∧
      ∀ d ∈ Memory.insertCell c m, d = c ∨ d ∈ m := by
  induction m with
  | nil => simp [insertCell]
  | cons d m ih =>
    obtain ⟨hd, hm⟩ := List.pairwise_cons.mp h
    have hdc : d.1 ≠ c.1 := fresh d (by simp)
    obtain ⟨ihp, ihm⟩ := ih hm (fun e he => fresh e (by simp [he]))
    by_cases hlt : c.1 < d.1
    · simp only [insertCell, hlt, if_true]
      refine ⟨List.pairwise_cons.mpr ⟨fun e he => ?_, h⟩, fun e he => by simpa using he⟩
      rcases List.mem_cons.mp he with rfl | he
      · exact hlt
      · exact lt_trans hlt (hd e he)
    · simp only [insertCell, hlt, if_false]
      refine ⟨List.pairwise_cons.mpr ⟨fun e he => ?_, ihp⟩, fun e he => ?_⟩
      · rcases ihm e he with rfl | he
        · omega
        · exact hd e he
      · rcases List.mem_cons.mp he with rfl | he
        · simp
        · rcases ihm e he with rfl | he <;> simp [*]

/-- A store keeps the canonical form. -/
theorem wf_store (m : Memory) (a : Nat) (v : Byte) (ha : a < Config.memSize) (h : m.wf f) :
    (m.store f a v).wf f := by
  have hf : (m.filter (fun c => c.1 ≠ a)).Pairwise (fun c d => c.1 < d.1) := h.1.filter _
  unfold store
  split
  · exact ⟨hf, fun c hc => h.2 c (List.mem_of_mem_filter hc)⟩
  · rename_i hv
    obtain ⟨hp, hm⟩ := pairwise_insertCell (a, v) _ hf (fresh_filter m a)
    refine ⟨hp, fun c hc => ?_⟩
    rcases hm c hc with rfl | hc
    · exact ⟨ha, hv⟩
    · exact h.2 c (List.mem_of_mem_filter hc)

/-- A write keeps the canonical form. -/
theorem wf_write (m : Memory) (a : Addr) (v : Byte) (h : m.wf f) : (m.write f a v).wf f :=
  wf_store f m a.toNat v a.isLt h

/-- Writing a sequence of bytes keeps the canonical form. -/
theorem wf_writeBytes (bs : List Byte) : ∀ (m : Memory) (a : Addr), m.wf f → (m.writeBytes f a bs).wf f := by
  induction bs with
  | nil => exact fun _ _ h => h
  | cons v bs ih => exact fun m a h => ih _ _ (wf_write f m a v h)

/-- Storing a range of registers keeps the canonical form. -/
theorem wf_storeRange (s : State) (h : s.mem.wf s.cfg.fontSet) (n : Nat) :
    (s.storeRange n).mem.wf s.cfg.fontSet := by
  induction n with
  | zero => exact h
  | succ n ih =>
    change ((s.storeRange n).mem.write (s.storeRange n).cfg.fontSet _ _).wf _
    rw [State.storeRange_cfg]
    exact wf_write _ _ _ _ ih

end Sys2Proof.Machine.Memory
end

