-- ==== Sys2Proof/Laws/PerInstr.lean ====
section
/-!
SUPPORT. Statements made per instruction. The family `OwnRow`: the encoder gives an instruction a word of its
own row of the opcode map (rule R86), proved on the three shapes of operand once and cited for each.
-/

namespace Sys2Proof.Laws

/-- The instruction's word matches a row of the opcode map that bears its mnemonic (rule R86). -/
def OwnRow.Statement (i : Instr) : Prop :=
  ∃ r ∈ opRows, r.mnemonic = i.mnemonic ∧ encode i &&& r.mask = r.pattern

namespace OwnRow

theorem clear : Statement (.clear) :=
  ⟨⟨"clear", 0xFFFF#16, 0x00E0#16⟩, by decide, rfl, by decide⟩
theorem ret : Statement (.ret) :=
  ⟨⟨"return", 0xFFFF#16, 0x00EE#16⟩, by decide, rfl, by decide⟩
theorem jump (nnn : Addr) : Statement (.jump nnn) :=
  ⟨⟨"jump", 0xF000#16, 0x1000#16⟩, by decide, rfl, mask_nnn ..⟩
theorem call (nnn : Addr) : Statement (.call nnn) :=
  ⟨⟨"call", 0xF000#16, 0x2000#16⟩, by decide, rfl, mask_nnn ..⟩
theorem skipEqImm (x : RegIdx) (kk : Byte) : Statement (.skipEqImm x kk) :=
  ⟨⟨"skip-eq-imm", 0xF000#16, 0x3000#16⟩, by decide, rfl, mask_xkk ..⟩
theorem skipNeImm (x : RegIdx) (kk : Byte) : Statement (.skipNeImm x kk) :=
  ⟨⟨"skip-ne-imm", 0xF000#16, 0x4000#16⟩, by decide, rfl, mask_xkk ..⟩
theorem skipEqReg (x : RegIdx) (y : RegIdx) : Statement (.skipEqReg x y) :=
  ⟨⟨"skip-eq-reg", 0xF00F#16, 0x5000#16⟩, by decide, rfl, mask_xyf ..⟩
theorem loadImm (x : RegIdx) (kk : Byte) : Statement (.loadImm x kk) :=
  ⟨⟨"load-imm", 0xF000#16, 0x6000#16⟩, by decide, rfl, mask_xkk ..⟩
theorem addImm (x : RegIdx) (kk : Byte) : Statement (.addImm x kk) :=
  ⟨⟨"add-imm", 0xF000#16, 0x7000#16⟩, by decide, rfl, mask_xkk ..⟩
theorem move (x : RegIdx) (y : RegIdx) : Statement (.move x y) :=
  ⟨⟨"move", 0xF00F#16, 0x8000#16⟩, by decide, rfl, mask_xyf ..⟩
theorem orReg (x : RegIdx) (y : RegIdx) : Statement (.orReg x y) :=
  ⟨⟨"or", 0xF00F#16, 0x8001#16⟩, by decide, rfl, mask_xyf ..⟩
theorem andReg (x : RegIdx) (y : RegIdx) : Statement (.andReg x y) :=
  ⟨⟨"and", 0xF00F#16, 0x8002#16⟩, by decide, rfl, mask_xyf ..⟩
theorem xorReg (x : RegIdx) (y : RegIdx) : Statement (.xorReg x y) :=
  ⟨⟨"xor", 0xF00F#16, 0x8003#16⟩, by decide, rfl, mask_xyf ..⟩
theorem addReg (x : RegIdx) (y : RegIdx) : Statement (.addReg x y) :=
  ⟨⟨"add", 0xF00F#16, 0x8004#16⟩, by decide, rfl, mask_xyf ..⟩
theorem subReg (x : RegIdx) (y : RegIdx) : Statement (.subReg x y) :=
  ⟨⟨"sub", 0xF00F#16, 0x8005#16⟩, by decide, rfl, mask_xyf ..⟩
theorem shr (x : RegIdx) (y : RegIdx) : Statement (.shr x y) :=
  ⟨⟨"shr", 0xF00F#16, 0x8006#16⟩, by decide, rfl, mask_xyf ..⟩
theorem subnReg (x : RegIdx) (y : RegIdx) : Statement (.subnReg x y) :=
  ⟨⟨"subn", 0xF00F#16, 0x8007#16⟩, by decide, rfl, mask_xyf ..⟩
theorem shl (x : RegIdx) (y : RegIdx) : Statement (.shl x y) :=
  ⟨⟨"shl", 0xF00F#16, 0x800E#16⟩, by decide, rfl, mask_xyf ..⟩
theorem skipNeReg (x : RegIdx) (y : RegIdx) : Statement (.skipNeReg x y) :=
  ⟨⟨"skip-ne-reg", 0xF00F#16, 0x9000#16⟩, by decide, rfl, mask_xyf ..⟩
theorem loadIndex (nnn : Addr) : Statement (.loadIndex nnn) :=
  ⟨⟨"load-index", 0xF000#16, 0xA000#16⟩, by decide, rfl, mask_nnn ..⟩
theorem jumpOffset (nnn : Addr) : Statement (.jumpOffset nnn) :=
  ⟨⟨"jump-offset", 0xF000#16, 0xB000#16⟩, by decide, rfl, mask_nnn ..⟩
theorem random (x : RegIdx) (kk : Byte) : Statement (.random x kk) :=
  ⟨⟨"random", 0xF000#16, 0xC000#16⟩, by decide, rfl, mask_xkk ..⟩
theorem draw (x : RegIdx) (y : RegIdx) (n : BitVec 4) : Statement (.draw x y n) :=
  ⟨⟨"draw", 0xF000#16, 0xD000#16⟩, by decide, rfl, mask_xyn ..⟩
theorem skipKeyPressed (x : RegIdx) : Statement (.skipKeyPressed x) :=
  ⟨⟨"skip-key-pressed", 0xF0FF#16, 0xE09E#16⟩, by decide, rfl, mask_xff ..⟩
theorem skipKeyNotPressed (x : RegIdx) : Statement (.skipKeyNotPressed x) :=
  ⟨⟨"skip-key-not-pressed", 0xF0FF#16, 0xE0A1#16⟩, by decide, rfl, mask_xff ..⟩
theorem readDelay (x : RegIdx) : Statement (.readDelay x) :=
  ⟨⟨"read-delay", 0xF0FF#16, 0xF007#16⟩, by decide, rfl, mask_xff ..⟩
theorem waitKey (x : RegIdx) : Statement (.waitKey x) :=
  ⟨⟨"wait-key", 0xF0FF#16, 0xF00A#16⟩, by decide, rfl, mask_xff ..⟩
theorem setDelay (x : RegIdx) : Statement (.setDelay x) :=
  ⟨⟨"set-delay", 0xF0FF#16, 0xF015#16⟩, by decide, rfl, mask_xff ..⟩
theorem setSound (x : RegIdx) : Statement (.setSound x) :=
  ⟨⟨"set-sound", 0xF0FF#16, 0xF018#16⟩, by decide, rfl, mask_xff ..⟩
theorem addIndex (x : RegIdx) : Statement (.addIndex x) :=
  ⟨⟨"add-index", 0xF0FF#16, 0xF01E#16⟩, by decide, rfl, mask_xff ..⟩
theorem fontChar (x : RegIdx) : Statement (.fontChar x) :=
  ⟨⟨"font-char", 0xF0FF#16, 0xF029#16⟩, by decide, rfl, mask_xff ..⟩
theorem bcd (x : RegIdx) : Statement (.bcd x) :=
  ⟨⟨"bcd", 0xF0FF#16, 0xF033#16⟩, by decide, rfl, mask_xff ..⟩
theorem storeRegs (x : RegIdx) : Statement (.storeRegs x) :=
  ⟨⟨"store-regs", 0xF0FF#16, 0xF055#16⟩, by decide, rfl, mask_xff ..⟩
theorem loadRegs (x : RegIdx) : Statement (.loadRegs x) :=
  ⟨⟨"load-regs", 0xF0FF#16, 0xF065#16⟩, by decide, rfl, mask_xff ..⟩

end OwnRow

end Sys2Proof.Laws
end

