-- ==== Sys2Proof/Laws/Ports.lean ====
section
/-!
SUPPORT. What the port operations do: their frames, the port log each leaves, and that the Display's bitmap
keeps its canonical form (rules R215 to R220).
-/

namespace Sys2Proof.Machine

/-! ### The RNG and the key query -/

@[simp] theorem Env.tookRand_display (e : Env) : e.tookRand.display = e.display := rfl
@[simp] theorem Env.tookRand_turns (e : Env) : e.tookRand.turns = e.turns := rfl
@[simp] theorem Env.tookRand_requests (e : Env) : e.tookRand.requests = e.requests := rfl
@[simp] theorem Env.tookRand_keyAnswers (e : Env) : e.tookRand.keyAnswers = e.keyAnswers := rfl
@[simp] theorem Env.tookRand_randAnswers (e : Env) : e.tookRand.randAnswers = e.randAnswers.tail := rfl
@[simp] theorem Env.tookRand_ports (e : Env) :
    e.tookRand.ports = e.ports ++ [.randByte e.nextRand] := rfl

@[simp] theorem Env.tookKey_display (e : Env) (k : Byte) : (e.tookKey k).display = e.display := rfl
@[simp] theorem Env.tookKey_turns (e : Env) (k : Byte) : (e.tookKey k).turns = e.turns := rfl
@[simp] theorem Env.tookKey_requests (e : Env) (k : Byte) : (e.tookKey k).requests = e.requests := rfl
@[simp] theorem Env.tookKey_randAnswers (e : Env) (k : Byte) :
    (e.tookKey k).randAnswers = e.randAnswers := rfl
@[simp] theorem Env.tookKey_keyAnswers (e : Env) (k : Byte) :
    (e.tookKey k).keyAnswers = e.keyAnswers.tail := rfl
@[simp] theorem Env.tookKey_ports (e : Env) (k : Byte) :
    (e.tookKey k).ports = e.ports ++ [.keyPressed k (e.nextKey k)] := rfl

/-- A scripted RNG answer is the one given. -/
theorem Env.nextRand_cons (e : Env) (r : Byte) (rs : List Byte) (h : e.randAnswers = r :: rs) :
    e.nextRand = r := by simp [Env.nextRand, h]

/-- A scripted key answer is the one given. -/
theorem Env.nextKey_cons (e : Env) (k : Byte) (p : Bool) (ps : List Bool)
    (h : e.keyAnswers = p :: ps) : e.nextKey k = p := by simp [Env.nextKey, h]

/-! ### Recording, rendering, clearing, arming -/

@[simp] theorem Env.record_display (e : Env) (p : PortEvent) : (e.record p).display = e.display := rfl
@[simp] theorem Env.record_turns (e : Env) (p : PortEvent) : (e.record p).turns = e.turns := rfl
@[simp] theorem Env.record_requests (e : Env) (p : PortEvent) : (e.record p).requests = e.requests := rfl
@[simp] theorem Env.record_keyAnswers (e : Env) (p : PortEvent) :
    (e.record p).keyAnswers = e.keyAnswers := rfl
@[simp] theorem Env.record_randAnswers (e : Env) (p : PortEvent) :
    (e.record p).randAnswers = e.randAnswers := rfl
@[simp] theorem Env.record_draws (e : Env) (p : PortEvent) : (e.record p).draws = e.draws := rfl
@[simp] theorem Env.record_ports (e : Env) (p : PortEvent) : (e.record p).ports = e.ports ++ [p] := rfl

@[simp] theorem Env.render_display (e : Env) : e.render.display = e.display := rfl
@[simp] theorem Env.render_turns (e : Env) : e.render.turns = e.turns := rfl
@[simp] theorem Env.render_requests (e : Env) : e.render.requests = e.requests := rfl
@[simp] theorem Env.render_ports (e : Env) : e.render.ports = e.ports ++ [.dispRender] := rfl

@[simp] theorem Env.clearDisplay_turns (e : Env) : e.clearDisplay.turns = e.turns := rfl
@[simp] theorem Env.clearDisplay_requests (e : Env) : e.clearDisplay.requests = e.requests := rfl
@[simp] theorem Env.clearDisplay_pixels (e : Env) : e.clearDisplay.display.pixels = [] := rfl
@[simp] theorem Env.clearDisplay_ports (e : Env) : e.clearDisplay.ports = e.ports ++ [.dispClear] := rfl

@[simp] theorem Env.armKeyWait_display (e : Env) : e.armKeyWait.display = e.display := rfl
@[simp] theorem Env.armKeyWait_turns (e : Env) : e.armKeyWait.turns = e.turns := rfl
@[simp] theorem Env.armKeyWait_requests (e : Env) : e.armKeyWait.requests = e.requests := rfl
@[simp] theorem Env.armKeyWait_ports (e : Env) : e.armKeyWait.ports = e.ports ++ [.armKeyWait] := rfl

/-! ### Pixels -/

/-- Toggling a pixel number in a strictly rising list keeps it rising. -/
theorem pairwise_togglePixel (p : Nat) (l : List Nat) (h : l.Pairwise (· < ·)) :
    (togglePixel p l).Pairwise (· < ·) ∧ ∀ q ∈ togglePixel p l, q = p ∨ q ∈ l := by
  induction l with
  | nil => simp [togglePixel]
  | cons q l ih =>
    obtain ⟨hq, hl⟩ := List.pairwise_cons.mp h
    obtain ⟨ihp, ihm⟩ := ih hl
    unfold togglePixel
    split
    · rename_i hlt
      refine ⟨List.pairwise_cons.mpr ⟨fun r hr => ?_, h⟩, fun r hr => by simpa using hr⟩
      rcases List.mem_cons.mp hr with rfl | hr
      · exact hlt
      · exact lt_trans hlt (hq r hr)
    · split
      · exact ⟨hl, fun r hr => .inr (List.mem_cons_of_mem _ hr)⟩
      · refine ⟨List.pairwise_cons.mpr ⟨fun r hr => ?_, ihp⟩, fun r hr => ?_⟩
        · rcases ihm r hr with rfl | hr
          · omega
          · exact hq r hr
        · rcases List.mem_cons.mp hr with rfl | hr
          · simp
          · rcases ihm r hr with rfl | hr <;> simp [*]

/-- What toggling leaves in a strictly rising list: the pixel where it was off, every other pixel as it was
(rule R216). -/
theorem mem_togglePixel (p q : Nat) (l : List Nat) (h : l.Pairwise (· < ·)) :
    q ∈ togglePixel p l ↔ if q = p then q ∉ l else q ∈ l := by
  induction l with
  | nil => simp [togglePixel]
  | cons r l ih =>
    obtain ⟨hr, hl⟩ := List.pairwise_cons.mp h
    have ih := ih hl
    unfold togglePixel
    by_cases hq : q = p
    · subst hq
      simp only [if_true] at ih ⊢
      by_cases h1 : q < r
      · have : q ∉ l := fun hm => by have := hr q hm; omega
        simp [h1, this]
        omega
      · by_cases h2 : q = r
        · subst h2
          have : q ∉ l := fun hm => by have := hr q hm; omega
          simp [this]
        · simp [h1, h2, ih]
    · simp only [hq, if_false] at ih ⊢
      by_cases h1 : p < r
      · simp [h1, hq]
      · by_cases h2 : p = r
        · subst h2
          simp [hq]
        · simp [h1, h2, ih]

/-- The number of an associated pixel lies inside the bitmap. -/
theorem Display.pixelAt_lt (d : Display) (x y p : Nat) (h : d.pixelAt x y = some p) :
    p < d.width * d.height := by
  unfold Display.pixelAt at h
  simpa using (Option.filter_eq_some_iff.mp h).2

@[simp] theorem Display.toggle_width (d : Display) (x y : Nat) : (d.toggle x y).width = d.width := by
  unfold Display.toggle; split <;> rfl
@[simp] theorem Display.toggle_height (d : Display) (x y : Nat) :
    (d.toggle x y).height = d.height := by unfold Display.toggle; split <;> rfl
@[simp] theorem Display.toggle_edge (d : Display) (x y : Nat) : (d.toggle x y).edge = d.edge := by
  unfold Display.toggle; split <;> rfl

/-- Which pixel a coordinate means does not depend on which pixels are on. -/
@[simp] theorem Display.pixelAt_toggle (d : Display) (x y x' y' : Nat) :
    (d.toggle x y).pixelAt x' y' = d.pixelAt x' y' := by simp [Display.pixelAt]

/-- A `DispSetPixel` keeps the bitmap canonical. -/
theorem Display.wf_toggle (d : Display) (x y : Nat) (h : d.wf) : (d.toggle x y).wf := by
  unfold Display.toggle
  split
  · rename_i p hp
    obtain ⟨hs, hm⟩ := pairwise_togglePixel p d.pixels h.1
    refine ⟨hs, fun q hq => ?_⟩
    rcases hm q hq with rfl | hq
    · exact Display.pixelAt_lt d x y _ hp
    · exact h.2 q hq
  · exact h

@[simp] theorem Env.setPixel_turns (e : Env) (p : Coord × Coord) : (e.setPixel p).turns = e.turns := rfl
@[simp] theorem Env.setPixel_requests (e : Env) (p : Coord × Coord) :
    (e.setPixel p).requests = e.requests := rfl
@[simp] theorem Env.setPixel_draws (e : Env) (p : Coord × Coord) : (e.setPixel p).draws = e.draws := rfl

/-- A sequence of `DispSetPixel` requests changes the bitmap and the port log, nothing else. -/
theorem Env.setPixels_frame (ps : List (Coord × Coord)) : ∀ e : Env,
    e.setPixels ps = { e with display := (e.setPixels ps).display, ports := (e.setPixels ps).ports } := by
  induction ps with
  | nil => intro e; rfl
  | cons p ps ih => intro e; rw [Env.setPixels, ih (e.setPixel p)]; rfl

@[simp] theorem Env.setPixels_turns (e : Env) (ps : List (Coord × Coord)) :
    (e.setPixels ps).turns = e.turns := by rw [Env.setPixels_frame]
@[simp] theorem Env.setPixels_requests (e : Env) (ps : List (Coord × Coord)) :
    (e.setPixels ps).requests = e.requests := by rw [Env.setPixels_frame]

/-- A sequence of `DispSetPixel` requests keeps the bitmap canonical. -/
theorem Env.wf_setPixels (ps : List (Coord × Coord)) : ∀ e : Env, e.display.wf →
    (e.setPixels ps).display.wf := by
  induction ps with
  | nil => exact fun _ h => h
  | cons p ps ih => exact fun e h => ih _ (Display.wf_toggle _ _ _ h)

end Sys2Proof.Machine
end

