-- ==== Sys2Proof/Laws/Step.lean ====
section
/-!
SUPPORT. What the boundary, the instruction step and the step can do, said once: the later proofs cite these
instead of unfolding the controller.
-/

namespace Sys2Proof.Machine

/-! ### Decoding two bytes -/

/-- Two bytes decode to an instruction exactly when their word does. -/
theorem decode_pair (a b : Byte) (i : Instr) :
    decode [a, b] = .ok (i, []) ↔ decodeWord (wordOfBytes a b) = some i := by
  simp only [decode]
  split <;> simp_all

/-! ### Boundaries (rule R206) -/

/-- Passing a boundary changes nothing of the core. -/
theorem State.passBoundary_frame (s : State) :
    s.passBoundary = { s with env := { s.env with
      turns := s.env.turns.tail, draws := s.passBoundary.env.draws } } := by
  unfold State.passBoundary
  split
  · rename_i h; simp [State.setEnv, h]
  · rename_i h
    have he : s.env = { s.env with turns := [] } := by rw [← h]
    split
    · simp [State.setEnv, h]
    · simp only [h, List.tail_nil]
      rw [← he]

/-- While no key is awaited, passing a boundary only uses up the scripted turn. -/
theorem State.passBoundary_not_awaiting (s : State) (h : s.mode ≠ .awaitingKey) :
    s.passBoundary = { s with env := { s.env with turns := s.env.turns.tail } } := by
  unfold State.passBoundary
  split
  · rename_i ht; simp [State.setEnv, ht]
  · rename_i ht
    have he : s.env = { s.env with turns := [] } := by rw [← ht]
    rw [if_neg h, ht, List.tail_nil, ← he]

@[simp] theorem State.passBoundary_v (s : State) : s.passBoundary.v = s.v := by
  rw [State.passBoundary_frame]
@[simp] theorem State.passBoundary_i (s : State) : s.passBoundary.i = s.i := by
  rw [State.passBoundary_frame]
@[simp] theorem State.passBoundary_pc (s : State) : s.passBoundary.pc = s.pc := by
  rw [State.passBoundary_frame]
@[simp] theorem State.passBoundary_sp (s : State) : s.passBoundary.sp = s.sp := by
  rw [State.passBoundary_frame]
@[simp] theorem State.passBoundary_stack (s : State) : s.passBoundary.stack = s.stack := by
  rw [State.passBoundary_frame]
@[simp] theorem State.passBoundary_dt (s : State) : s.passBoundary.dt = s.dt := by
  rw [State.passBoundary_frame]
@[simp] theorem State.passBoundary_st (s : State) : s.passBoundary.st = s.st := by
  rw [State.passBoundary_frame]
@[simp] theorem State.passBoundary_mode (s : State) : s.passBoundary.mode = s.mode := by
  rw [State.passBoundary_frame]
@[simp] theorem State.passBoundary_waitReg (s : State) : s.passBoundary.waitReg = s.waitReg := by
  rw [State.passBoundary_frame]
@[simp] theorem State.passBoundary_fault (s : State) : s.passBoundary.fault = s.fault := by
  rw [State.passBoundary_frame]
@[simp] theorem State.passBoundary_mem (s : State) : s.passBoundary.mem = s.mem := by
  rw [State.passBoundary_frame]
@[simp] theorem State.passBoundary_ctl (s : State) : s.passBoundary.ctl = s.ctl := by
  rw [State.passBoundary_frame]
@[simp] theorem State.passBoundary_cfg (s : State) : s.passBoundary.cfg = s.cfg := by
  rw [State.passBoundary_frame]
@[simp] theorem State.passBoundary_requests (s : State) :
    s.passBoundary.env.requests = s.env.requests := by rw [State.passBoundary_frame]
@[simp] theorem State.passBoundary_turns (s : State) :
    s.passBoundary.env.turns = s.env.turns.tail := by rw [State.passBoundary_frame]
@[simp] theorem State.passBoundary_display (s : State) :
    s.passBoundary.env.display = s.env.display := by rw [State.passBoundary_frame]
@[simp] theorem State.passBoundary_ports (s : State) :
    s.passBoundary.env.ports = s.env.ports := by rw [State.passBoundary_frame]

/-- With nothing scripted and no key awaited, no key event is due (rule R201). -/
theorem State.keyEventDue_quiet (s : State) (ht : s.env.turns = []) (hm : s.mode ≠ .awaitingKey) :
    s.keyEventDue = none := by simp [State.keyEventDue, ht, hm]

/-- A scripted turn is the one taken. -/
theorem State.keyEventDue_cons (s : State) (t : Option Byte) (ts : List (Option Byte))
    (h : s.env.turns = t :: ts) : s.keyEventDue = t := by simp [State.keyEventDue, h]

/-! ### The step -/

/-- What an instruction step does: the decoded instruction's meaning on the advanced state, or the illegal
word's report (rule R84). -/
theorem State.instructionStep_of_decode (s : State) (i : Instr) (h : decodeWord s.fetchWord = some i) :
    s.instructionStep = exec i s.advance := by simp only [State.instructionStep, h]

theorem State.instructionStep_of_illegal (s : State) (h : decodeWord s.fetchWord = none) :
    s.instructionStep = .next (s.advance.unknownOpcode s.fetchWord s.pc) := by
  simp only [State.instructionStep, h]

/-- A step with a key event due is that event. -/
theorem step_of_keyEvent (s : State) (k : Byte) (h : s.keyEventDue = some k) :
    step s = .next (s.passBoundary.keyEvent k) := by simp only [step, State.takeStep, h]

/-- A step with no key event due is one unit of the core or the host's turn. -/
theorem step_of_unit (s : State) (h : s.keyEventDue = none) : step s = s.passBoundary.coreUnit := by
  simp only [step, State.takeStep, h]

/-- Everything a unit that answers a next state can be: the host's turn between two cycles, an
iteration of the loop, the end of the loop, the tick unit or the render unit (rules R205, R206). -/
theorem State.coreUnit_cases {s t : State} (h : s.coreUnit = .next t) :
    (((∃ l, s.ctl = .ready l) ∨ s.ctl = .idle) ∧ s.hostUnit = .next t) ∨
    (∃ left, s.ctl = .loop (left + 1) ∧ s.mode = .running ∧
      (s.setCtl (.loop left)).instructionStep = .next t) ∨
    (∃ left, s.ctl = .loop left ∧ (s.mode ≠ .running ∨ left = 0) ∧ t = s.setCtl .tick) ∨
    (s.ctl = .tick ∧ t = s.tickUnit) ∨
    (s.ctl = .render ∧ t = s.renderUnit) := by
  unfold State.coreUnit at h
  split at h
  · exact .inl ⟨.inl ⟨_, ‹_›⟩, h⟩
  · exact .inl ⟨.inr ‹_›, h⟩
  · rename_i left hc
    cases left with
    | zero => simp only [State.loopUnit, Host.Outcome.next.injEq] at h
              exact .inr (.inr (.inl ⟨0, hc, .inr rfl, h.symm⟩))
    | succ left =>
      simp only [State.loopUnit] at h
      split at h
      · exact .inr (.inl ⟨left, hc, ‹_›, h⟩)
      · simp only [Host.Outcome.next.injEq] at h
        exact .inr (.inr (.inl ⟨_, hc, .inl ‹_›, h.symm⟩))
  · simp only [Host.Outcome.next.injEq] at h
    exact .inr (.inr (.inr (.inl ⟨‹_›, h.symm⟩)))
  · simp only [Host.Outcome.next.injEq] at h
    exact .inr (.inr (.inr (.inr ⟨‹_›, h.symm⟩)))

/-- Everything the host's turn that answers a next state can be (rule R238). -/
theorem State.hostUnit_cases {s t : State} (h : s.hostUnit = .next t) :
    (s.env.requests = [] ∧ t = s.beginCycle) ∨
    ∃ r rs, s.env.requests = r :: rs ∧
      ((r = .initializeCore ∧ t = (s.setEnv { s.env with requests := rs }).initialize) ∨
       (r = .cycle ∧ t = (s.setEnv { s.env with requests := rs }).beginCycle) ∨
       ∃ bytes, r = .loadImage bytes ∧ s.ctl = .ready false ∧
         (s.setEnv { s.env with requests := rs }).loadImage bytes = .next t) := by
  unfold State.hostUnit at h
  split at h
  · simp only [Host.Outcome.next.injEq] at h
    exact .inl ⟨‹_›, h.symm⟩
  · rename_i r rs hr
    refine .inr ⟨r, rs, hr, ?_⟩
    rcases r with - | bytes | -
    · simp only [State.serve, Host.Outcome.next.injEq] at h
      exact .inl ⟨rfl, h.symm⟩
    rotate_left
    · simp only [State.serve, Host.Outcome.next.injEq] at h
      exact .inr (.inl ⟨rfl, h.symm⟩)
    · refine .inr (.inr ⟨bytes, rfl, ?_, h⟩)
      simp only [State.serve, State.loadImage, State.setEnv_ctl] at h
      split at h
      · assumption
      · simp at h
      · simp at h

end Sys2Proof.Machine
end

