-- ==== Sys2Proof/Tests/Slice0.lean ====
section
/-!
SUPPORT. The model's own tests. Expected values are the spec's: words written out bit by bit from the formats of
spec/30_encoding.md, and the vectors of spec/95_test_vectors.md (its section or example number stands before each
group). After them, for every obligation with hypotheses, states and operands that meet them.
-/

namespace Sys2Proof.Tests

open Sys2Proof.Machine

/-! ### Well-formedness: each check accepts its last number and refuses the first beyond it -/

theorem test_regFits : regFits 15 = true ∧ regFits 16 = false := by decide
theorem test_byteFits : byteFits 255 = true ∧ byteFits 256 = false := by decide
theorem test_addrFits : addrFits 4095 = true ∧ addrFits 4096 = false := by decide
theorem test_rowsFit : rowsFit 15 = true ∧ rowsFit 16 = false := by decide
theorem test_wellFormed_boundary :
    (Instr.draw 15#4 15#4 15#4).wellFormed = true ∧ (Instr.random 15#4 0xFF#8).wellFormed = true ∧
    (Instr.jump 0xFFF#12).wellFormed = true ∧ (Instr.shl 15#4 15#4).wellFormed = true := by decide

/-! ### Decoding: the word of every constructor, bit by bit (R82, R86; 95_test_vectors.md 2.1) -/

theorem test_decode_family0 :
    decodeWord 0b0000000011100000#16 = some .clear ∧
    decodeWord 0b0000000011101110#16 = some .ret := by decide
theorem test_decode_addresses :
    decodeWord 0b0001101010111100#16 = some (.jump 0xABC#12) ∧
    decodeWord 0b0010101010111100#16 = some (.call 0xABC#12) ∧
    decodeWord 0b1010000100100011#16 = some (.loadIndex 0x123#12) ∧
    decodeWord 0b1011001100000000#16 = some (.jumpOffset 0x300#12) := by decide
theorem test_decode_immediates :
    decodeWord 0b0011101001000010#16 = some (.skipEqImm 0xA#4 0x42#8) ∧
    decodeWord 0b0100101001000010#16 = some (.skipNeImm 0xA#4 0x42#8) ∧
    decodeWord 0b0110101001111111#16 = some (.loadImm 0xA#4 0x7F#8) ∧
    decodeWord 0b0111000100100000#16 = some (.addImm 0x1#4 0x20#8) ∧
    decodeWord 0b1100000100001111#16 = some (.random 0x1#4 0x0F#8) := by decide
theorem test_decode_register_skips :
    decodeWord 0b0101101010110000#16 = some (.skipEqReg 0xA#4 0xB#4) ∧
    decodeWord 0b1001101010110000#16 = some (.skipNeReg 0xA#4 0xB#4) := by decide
theorem test_decode_family8 :
    decodeWord 0b1000000100100000#16 = some (.move 1#4 2#4) ∧
    decodeWord 0b1000000100100001#16 = some (.orReg 1#4 2#4) ∧
    decodeWord 0b1000000100100010#16 = some (.andReg 1#4 2#4) ∧
    decodeWord 0b1000000100100011#16 = some (.xorReg 1#4 2#4) ∧
    decodeWord 0b1000000100100100#16 = some (.addReg 1#4 2#4) ∧
    decodeWord 0b1000000100100101#16 = some (.subReg 1#4 2#4) ∧
    decodeWord 0b1000000100100110#16 = some (.shr 1#4 2#4) ∧
    decodeWord 0b1000000100100111#16 = some (.subnReg 1#4 2#4) ∧
    decodeWord 0b1000000100101110#16 = some (.shl 1#4 2#4) := by decide
theorem test_decode_draw : decodeWord 0b1101000000010101#16 = some (.draw 0#4 1#4 5#4) := by decide
theorem test_decode_familyE :
    decodeWord 0b1110000110011110#16 = some (.skipKeyPressed 1#4) ∧
    decodeWord 0b1110000110100001#16 = some (.skipKeyNotPressed 1#4) := by decide
theorem test_decode_familyF :
    decodeWord 0b1111001000000111#16 = some (.readDelay 2#4) ∧
    decodeWord 0b1111001000001010#16 = some (.waitKey 2#4) ∧
    decodeWord 0b1111001000010101#16 = some (.setDelay 2#4) ∧
    decodeWord 0b1111001000011000#16 = some (.setSound 2#4) ∧
    decodeWord 0b1111001000011110#16 = some (.addIndex 2#4) ∧
    decodeWord 0b1111001000101001#16 = some (.fontChar 2#4) ∧
    decodeWord 0b1111001000110011#16 = some (.bcd 2#4) ∧
    decodeWord 0b1111001001010101#16 = some (.storeRegs 2#4) ∧
    decodeWord 0b1111001001100101#16 = some (.loadRegs 2#4) := by decide

/-- The illegal words of 95_test_vectors.md 2.1. -/
theorem test_illegal_words :
    ([0x0000#16, 0x00E1#16, 0x00FE#16, 0x01E0#16, 0x0123#16, 0x0FFE#16, 0x5121#16, 0x512F#16, 0x9121#16,
      0x8128#16, 0x812D#16, 0x812F#16, 0xE100#16, 0xE19F#16, 0xE1A0#16, 0xF100#16, 0xF10B#16, 0xF175#16,
      0xF185#16, 0xF1FF#16].all (fun w => decodeWord w == none && !legalWord w)) = true := by decide

/-- The table's numbering of a word's bits: the word itself. -/
theorem test_table_words :
    decodeTableWord 16 0x8125 = some (.subReg 1#4 2#4) ∧ decodeTableWord 16 0x5121 = none := by decide

/-- No two rows of the opcode map share a word: where both masks look, two patterns differ. -/
theorem test_rows_disjoint :
    opRows.Pairwise (fun r r' => r.pattern &&& (r.mask &&& r'.mask) ≠ r'.pattern &&& (r.mask &&& r'.mask)) := by
  decide

/-! ### One step on a small state -/

/-- The reset state with registers `x` and `y` set. -/
def regs (x : RegIdx) (a : Byte) (y : RegIdx) (b : Byte) : State := (State.reset.setReg y b).setReg x a

/-- The state an outcome is, the reset state where it is none. -/
def result : Host.Outcome State Fault Refusal → State
  | .next t => t
  | _ => State.reset

/-- The state after one step that runs the word placed at `PC`. -/
def run1 (w : Nat) (s : State) : State := result (step (s.withFetchWord 16 w))

-- 95_test_vectors.md 2.2
theorem test_jump : (run1 0x1ABC State.reset).pc = 0xABC#12 := by decide
theorem test_call : let t := run1 0x2ABC State.reset
    t.pc = 0xABC#12 ∧ t.sp = 1 ∧ t.stack[0] = 0x202#12 := by decide
theorem test_call_overflow : let t := run1 0x2ABC { State.reset with sp := 16 }
    t.pc = 0x202#12 ∧ t.sp = 16 ∧ t.mode = .halted ∧
      t.fault = some ⟨.stackOverflow, 0x2ABC#16, 0x200#12⟩ := by decide
theorem test_return :
    let t := run1 0x00EE { State.reset with sp := 1, stack := State.reset.stack.set 0 0x345#12 }
    t.pc = 0x345#12 ∧ t.sp = 0 ∧ t.stack[0] = 0x345#12 := by decide
theorem test_return_underflow : let t := run1 0x00EE State.reset
    t.pc = 0x202#12 ∧ t.mode = .halted ∧ t.fault = some ⟨.stackUnderflow, 0x00EE#16, 0x200#12⟩ := by decide
theorem test_skip_eq_imm :
    (run1 0x3A42 (regs 10#4 0x42#8 0#4 0#8)).pc = 0x204#12 ∧
    (run1 0x3A42 (regs 10#4 0x43#8 0#4 0#8)).pc = 0x202#12 := by decide
theorem test_skip_wraps : (run1 0x3000 { State.reset with pc := 0xFFE#12 }).pc = 0x002#12 := by decide
theorem test_skip_ne_imm :
    (run1 0x4A42 (regs 10#4 0x43#8 0#4 0#8)).pc = 0x204#12 ∧
    (run1 0x4A42 (regs 10#4 0x42#8 0#4 0#8)).pc = 0x202#12 := by decide
theorem test_skip_eq_reg :
    (run1 0x5AB0 (regs 10#4 7#8 11#4 7#8)).pc = 0x204#12 ∧
    (run1 0x5AB0 (regs 10#4 7#8 11#4 8#8)).pc = 0x202#12 := by decide
theorem test_skip_ne_reg :
    (run1 0x9AB0 (regs 10#4 7#8 11#4 8#8)).pc = 0x204#12 ∧
    (run1 0x9AA0 (regs 10#4 9#8 11#4 0#8)).pc = 0x202#12 := by decide
theorem test_jump_offset :
    (run1 0xBFFF (regs 0#4 0xFF#8 1#4 0#8)).pc = 0x0FE#12 ∧
    (run1 0xBFFF (regs 0#4 1#8 1#4 0#8)).pc = 0x000#12 := by decide
/-- A fetch at the top of memory takes its second byte from address 0. -/
theorem test_fetch_wraps : let t := run1 0x6123 { State.reset with pc := 0xFFF#12 }
    t.reg 1#4 = 0x23#8 ∧ t.pc = 0x001#12 ∧ t.readByte 0xFFF#12 = 0x61#8 ∧ t.readByte 0#12 = 0x23#8 := by
  decide
/-- 95_test_vectors.md 2.1, the last vector. -/
theorem test_illegal_word_halts : let t := run1 0x5AB1 State.reset
    t.pc = 0x202#12 ∧ t.mode = .halted ∧ t.fault = some ⟨.unknownOpcode, 0x5AB1#16, 0x200#12⟩ := by decide
/-- P6b under `SKIP`. -/
theorem test_illegal_word_skips :
    let t := run1 0x0000 { State.reset with pc := 0x208#12, cfg := ⟨7, .skip, .default⟩ }
    t.pc = 0x20A#12 ∧ t.mode = .running ∧ t.fault = some ⟨.unknownOpcode, 0x0000#16, 0x208#12⟩ := by decide

-- 95_test_vectors.md 2.3, S2 to S6
theorem test_load_imm : (run1 0x6A7F State.reset).reg 10#4 = 0x7F#8 := by decide
theorem test_add_imm : let t := run1 0x7101 (regs 1#4 255#8 15#4 7#8)
    t.reg 1#4 = 0#8 ∧ t.reg 15#4 = 7#8 := by decide
theorem test_move : (run1 0x8120 (regs 1#4 5#8 2#4 9#8)).reg 1#4 = 9#8 := by decide
theorem test_or : (run1 0x8121 (regs 1#4 0xF0#8 2#4 0x3C#8)).reg 1#4 = 0xFC#8 := by decide
theorem test_and : (run1 0x8122 (regs 1#4 0xF0#8 2#4 0x3C#8)).reg 1#4 = 0x30#8 := by decide
theorem test_xor : (run1 0x8123 (regs 1#4 0xF0#8 2#4 0x3C#8)).reg 1#4 = 0xCC#8 := by decide
theorem test_add : let t := run1 0x8124 (regs 1#4 250#8 2#4 10#8)
    t.reg 1#4 = 4#8 ∧ t.reg 15#4 = 1#8 ∧ t.reg 2#4 = 10#8 := by decide
theorem test_add_vF :
    (run1 0x8F24 (regs 15#4 200#8 2#4 100#8)).reg 15#4 = 44#8 ∧
    (run1 0x81F4 (regs 1#4 200#8 15#4 100#8)).reg 1#4 = 44#8 := by decide
theorem test_sub : let t := run1 0x8125 (regs 1#4 5#8 2#4 10#8)
    t.reg 1#4 = 251#8 ∧ t.reg 15#4 = 0#8 ∧ (run1 0x8125 (regs 1#4 7#8 2#4 7#8)).reg 15#4 = 0#8 := by decide
theorem test_sub_vF :
    (run1 0x8F25 (regs 15#4 10#8 2#4 3#8)).reg 15#4 = 254#8 ∧
    (run1 0x81F5 (regs 1#4 10#8 15#4 3#8)).reg 1#4 = 9#8 := by decide
theorem test_shr : let t := run1 0x8126 (regs 1#4 3#8 2#4 0x55#8)
    t.reg 1#4 = 1#8 ∧ t.reg 15#4 = 1#8 ∧ t.reg 2#4 = 0x55#8 := by decide
theorem test_shr_vF : (run1 0x8F26 (regs 15#4 3#8 2#4 0#8)).reg 15#4 = 0#8 := by decide
theorem test_subn : let t := run1 0x8127 (regs 1#4 10#8 2#4 5#8)
    t.reg 1#4 = 251#8 ∧ t.reg 15#4 = 0#8 ∧ (run1 0x8127 (regs 1#4 5#8 2#4 10#8)).reg 15#4 = 1#8 := by decide
theorem test_subn_vF :
    (run1 0x8F27 (regs 15#4 3#8 2#4 10#8)).reg 15#4 = 9#8 ∧
    (run1 0x81F7 (regs 1#4 3#8 15#4 10#8)).reg 1#4 = 254#8 := by decide
theorem test_shl : let t := run1 0x812E (regs 1#4 0x81#8 2#4 0x7F#8)
    t.reg 1#4 = 2#8 ∧ t.reg 15#4 = 1#8 ∧ t.reg 2#4 = 0x7F#8 := by decide
theorem test_shl_vF : (run1 0x8F2E (regs 15#4 0x81#8 2#4 0#8)).reg 15#4 = 2#8 := by decide
theorem test_random :
    let t := run1 0xC10F (State.reset.setEnv { Env.quiet with randAnswers := [0xA7#8] })
    t.reg 1#4 = 7#8 ∧ t.env.ports = [.randByte 0xA7#8] := by decide

-- 95_test_vectors.md 2.4, S8, S13
theorem test_load_index : (run1 0xA123 State.reset).i = 0x123#12 := by decide
theorem test_add_index : let t := run1 0xF11E { regs 1#4 2#8 15#4 7#8 with i := 0xFFF#12 }
    t.i = 0x001#12 ∧ t.reg 15#4 = 7#8 := by decide
theorem test_font_char :
    (run1 0xF129 (regs 1#4 0xA#8 2#4 0#8)).i = 0x082#12 ∧
    (run1 0xF129 (regs 1#4 0xFF#8 2#4 0#8)).i = 0x54B#12 := by decide
/-- The font and where it lies are parameters: reset lays out the one given, and `Fx29` uses its base. -/
theorem test_other_font :
    let s := ({ regs 1#4 2#8 2#4 0#8 with cfg := ⟨1, .halt, ⟨0x100#12, Vector.replicate 80 0x3C#8⟩⟩ } : State)
    (run1 0xF129 s).i = 0x10A#12 ∧ s.initialize.readByte 0x100#12 = 0x3C#8 ∧
    s.initialize.readByte 0x14F#12 = 0x3C#8 ∧ s.initialize.readByte 0x150#12 = 0#8 ∧
    s.initialize.readByte 0x050#12 = 0#8 := by decide
theorem test_bcd : let t := run1 0xF133 { regs 1#4 157#8 2#4 0#8 with i := 0x300#12 }
    t.readByte 0x300#12 = 1#8 ∧ t.readByte 0x301#12 = 5#8 ∧ t.readByte 0x302#12 = 7#8 ∧ t.i = 0x300#12 := by
  decide
theorem test_bcd_wraps : let t := run1 0xF133 { regs 1#4 234#8 2#4 0#8 with i := 0xFFF#12 }
    t.readByte 0xFFF#12 = 2#8 ∧ t.readByte 0x000#12 = 3#8 ∧ t.readByte 0x001#12 = 4#8 := by decide
theorem test_store_regs :
    let t := run1 0xF155 { regs 0#4 0xAA#8 1#4 0xBB#8 with i := 0xFFF#12 }
    t.readByte 0xFFF#12 = 0xAA#8 ∧ t.readByte 0x000#12 = 0xBB#8 ∧ t.i = 0xFFF#12 := by decide
theorem test_store_regs_only_v0 :
    let t := run1 0xF055 { regs 0#4 0x5A#8 1#4 0x11#8 with i := 0x600#12 }
    t.readByte 0x600#12 = 0x5A#8 ∧ t.readByte 0x601#12 = 0#8 := by decide
theorem test_load_regs :
    let t := run1 0xF165 { regs 2#4 9#8 3#4 9#8 with
      i := 0xFFF#12, mem := [(0x000, 0x88#8), (0xFFF, 0x77#8)] }
    t.reg 0#4 = 0x77#8 ∧ t.reg 1#4 = 0x88#8 ∧ t.reg 2#4 = 9#8 ∧ t.i = 0xFFF#12 := by decide

-- 95_test_vectors.md 2.5
theorem test_clear :
    let t := run1 0x00E0 (State.reset.setEnv { Env.quiet with display := { Display.reference with pixels := [3] } })
    t.env.display.pixels = [] ∧ t.env.ports = [.dispClear] := by decide
theorem test_draw :
    let t := run1 0xD012 { regs 0#4 62#8 1#4 31#8 with
      i := 0x300#12, mem := [(0x300, 0x81#8), (0x301, 0xC0#8)] }
    t.env.ports = [.dispSetPixel 62#9 31#9 false, .dispSetPixel 69#9 31#9 false,
      .dispSetPixel 62#9 32#9 false, .dispSetPixel 63#9 32#9 false] ∧
    t.env.display.pixels = [62, 63, 31 * 64 + 5, 31 * 64 + 62] ∧ t.reg 15#4 = 0#8 := by decide
theorem test_draw_vF_coordinate :
    let t := run1 0xDF11 { regs 15#4 10#8 1#4 2#8 with i := 0x300#12, mem := [(0x300, 0xC0#8)] }
    t.env.ports = [.dispSetPixel 10#9 2#9 false, .dispSetPixel 11#9 2#9 false] ∧ t.reg 15#4 = 0#8 := by
  decide

-- 95_test_vectors.md 2.6
theorem test_skip_key_pressed :
    (run1 0xE19E ((regs 1#4 4#8 2#4 0#8).setEnv { Env.quiet with keyAnswers := [true] })).pc = 0x204#12 ∧
    (run1 0xE19E ((regs 1#4 4#8 2#4 0#8).setEnv { Env.quiet with keyAnswers := [false] })).pc = 0x202#12 := by
  decide
theorem test_skip_key_query_is_not_masked :
    (run1 0xE19E ((regs 1#4 0x20#8 2#4 0#8).setEnv { Env.quiet with keyAnswers := [true] })).env.ports =
      [.keyPressed 0x20#8 true] := by decide
theorem test_skip_key_not_pressed :
    (run1 0xE1A1 ((regs 1#4 4#8 2#4 0#8).setEnv { Env.quiet with keyAnswers := [true] })).pc = 0x202#12 ∧
    (run1 0xE1A1 ((regs 1#4 4#8 2#4 0#8).setEnv { Env.quiet with keyAnswers := [false] })).pc = 0x204#12 := by
  decide
theorem test_read_delay : let t := run1 0xF107 { State.reset with dt := 0x2A#8 }
    t.reg 1#4 = 0x2A#8 ∧ t.dt = 0x2A#8 := by decide
theorem test_set_delay : (run1 0xF015 (regs 0#4 5#8 1#4 0#8)).dt = 5#8 := by decide
theorem test_set_sound : let t := run1 0xF318 (regs 3#4 0x10#8 1#4 0#8)
    t.st = 0x10#8 ∧ t.soundActive = true ∧
    (run1 0xF318 { State.reset with st := 9#8 }).soundActive = false := by decide
theorem test_wait_key : let t := run1 0xF20A State.reset
    t.mode = .awaitingKey ∧ t.waitReg = 2#4 ∧ t.pc = 0x202#12 ∧ t.v = State.reset.v ∧
      t.env.ports = [.armKeyWait] := by decide
theorem test_key_event :
    let t := result (step { State.reset with
      mode := .awaitingKey, waitReg := 15#4, ctl := .idle
      env := { Env.quiet with turns := [some 3#8] } })
    t.reg 15#4 = 3#8 ∧ t.mode = .running ∧ t.ctl = .idle ∧ t.env.turns = [] := by decide

-- 95_test_vectors.md 2.6, cycle level, and 2.7
theorem test_tick : let t := result (step { State.reset with ctl := .tick, dt := 1#8, st := 0#8 })
    t.dt = 0#8 ∧ t.st = 0#8 ∧ t.ctl = .render := by decide
theorem test_loadImage_too_large (bytes : List Byte) (h : bytes.length > 3584) :
    State.reset.loadImage bytes =
      .next (State.reset.setEnv { Env.quiet with ports := [.loadFailed .imageTooLarge] }) := if_pos h
theorem test_loadImage :
    let t := result (step (State.reset.setEnv
      { Env.quiet with requests := [.loadImage [0x12#8, 0x00#8, 0x77#8]] }))
    t.readByte 0x200#12 = 0x12#8 ∧ t.readByte 0x201#12 = 0#8 ∧ t.readByte 0x202#12 = 0x77#8 ∧
      t.ctl = .ready true := by decide
/-- The font lies at its base after reset, and memory outside it is zero. -/
theorem test_reset_memory :
    State.reset.readByte 0x050#12 = 0xF0#8 ∧ State.reset.readByte 0x09F#12 = 0x80#8 ∧
    State.reset.readByte 0x0A0#12 = 0#8 ∧ State.reset.readByte 0x04F#12 = 0#8 := by decide

/-! ### Witnesses: states and operands that meet the hypotheses of each obligation that has any -/

/-- Running, in the loop of a `cycle()` with one step left, no key event scripted, `w` at `PC`. -/
def looping (w : Nat) (s : State) : State := s.withFetchWord 16 w

/-- A font other than the default, as high as the reserved region allows. -/
def otherFont : FontSet := { base := 0x1B0#12, bytes := Vector.replicate 80 0x3C#8 }

/-- Halted by the word at `0x200`, between two cycles. -/
def halted : State :=
  { State.reset with
    mode := .halted, ctl := .idle, pc := 0x202#12, cfg := ⟨2, .halt, .default⟩
    fault := some ⟨.unknownOpcode, 0#16, 0x200#12⟩ }

/-- Awaiting a key for `V2` between two cycles. -/
def awaiting (turns : List (Option Byte)) : State :=
  { State.reset with
    mode := .awaitingKey, waitReg := 2#4, ctl := .idle, cfg := ⟨2, .halt, .default⟩
    env := { Env.quiet with turns := turns } }

/-- Idle, `SPEED` 1, no key event at the next five boundaries, `w` at `PC`. -/
def idle1 (w : Nat) : State :=
  { State.reset.placeWord (BitVec.ofNat 16 w) with
    ctl := .idle, cfg := ⟨1, .halt, .default⟩, env := { Env.quiet with turns := List.replicate 5 none } }

theorem test_witness_DecodeOfEncode :
    (Instr.draw 1#4 2#4 15#4).wellFormed = true ∧ (Instr.loadImm 15#4 0xFF#8).wellFormed = true := by decide
theorem test_witness_EncodeOfDecode : decodeWord 0x81FE#16 = some (.shl 1#4 15#4) := by decide
theorem test_witness_DecodeFollowsOpcodeMap :
    (⟨"draw", 0xF000#16, 0xD000#16⟩ : OpRow) ∈ opRows ∧ 0xD12F#16 &&& 0xF000#16 = 0xD000#16 := by decide
theorem test_witness_ImmediateSkips :
    (regs 1#4 5#8 2#4 0#8).reg 1#4 = 5#8 ∧ (regs 1#4 5#8 2#4 0#8).reg 1#4 ≠ 6#8 := by decide
theorem test_witness_RegisterSkips :
    (regs 1#4 5#8 2#4 5#8).reg 1#4 = (regs 1#4 5#8 2#4 5#8).reg 2#4 ∧
    (regs 1#4 5#8 2#4 6#8).reg 1#4 ≠ (regs 1#4 5#8 2#4 6#8).reg 2#4 := by decide
theorem test_witness_CallAndReturn :
    ({ State.reset with sp := 15 } : State).sp.val < 16 ∧ State.reset.sp.val < 16 ∧
    0 < ({ State.reset with sp := 1 } : State).sp.val ∧ 0 < ({ State.reset with sp := 16 } : State).sp.val := by
  decide
theorem test_witness_ReturnUndoesCall : ∃ s u t : State, s.sp.val < 16 ∧ exec (.call 0x300#12) s = .next t ∧
    u.sp = t.sp ∧ u.stack = t.stack :=
  ⟨State.reset, result (exec (.call 0x300#12) State.reset), _, by decide, rfl, rfl, rfl⟩
theorem test_witness_StackFaultsHalt_underflow : let s := looping 0x00EE State.reset
    s.mode = .running ∧ s.ctl = .loop 1 ∧ s.keyEventDue = none ∧ s.fetchWord = 0x00EE#16 ∧ s.sp.val = 0 := by
  decide
theorem test_witness_StackFaultsHalt_overflow : let s := looping 0x2FFF { State.reset with sp := 16 }
    s.mode = .running ∧ s.ctl = .loop 1 ∧ s.keyEventDue = none ∧ s.fetchWord.toNat / 4096 = 2 ∧
      s.sp.val = 16 := by decide
theorem test_witness_ArithmeticLaws : let s := regs 1#4 200#8 2#4 100#8
    (s.reg 1#4).toNat = 200 ∧ (s.reg 2#4).toNat = 100 ∧ (1#4 : RegIdx) ≠ vF ∧ (2#4 : RegIdx) ≠ vF := by decide
theorem test_witness_AliasedFlagForms : let s := regs 1#4 200#8 15#4 100#8
    (s.reg 1#4).toNat = 200 ∧ (s.reg 2#4).toNat = 0 ∧ (s.reg vF).toNat = 100 ∧
      (1#4 : RegIdx) ≠ vF ∧ (2#4 : RegIdx) ≠ vF := by decide
theorem test_witness_RandomMasksOneAnswer :
    (State.reset.setEnv { Env.quiet with randAnswers := [0xA7#8] }).env.randAnswers = 0xA7#8 :: [] := by decide
theorem test_witness_FontCharPointsAtSprite :
    4 < 5 ∧ ((regs 1#4 15#8 2#4 0#8).reg 1#4).toNat < 16 ∧ FontSet.default.reserved ∧
    otherFont.reserved := by decide
theorem test_witness_BcdStoresDigits :
    (0x002#12 : Addr) ≠ effAddr 0xFFF#12 0 ∧ (0x002#12 : Addr) ≠ effAddr 0xFFF#12 1 ∧
    (0x002#12 : Addr) ≠ effAddr 0xFFF#12 2 := by decide
theorem test_witness_StoreRegsStoresRange :
    (15#4 : RegIdx).toNat ≤ (15#4 : RegIdx).toNat ∧
    ∀ k : Fin 16, (0x00F#12 : Addr) ≠ effAddr 0xFFF#12 k.val := by decide
theorem test_witness_LoadUndoesStore : ∃ s u t : State, exec (.storeRegs 15#4) s = .next t ∧
    u.mem = t.mem ∧ u.cfg = t.cfg ∧ u.i = t.i ∧ (3#4 : RegIdx).toNat ≤ (15#4 : RegIdx).toNat :=
  ⟨regs 0#4 1#8 1#4 2#8, result (exec (.storeRegs 15#4) (regs 0#4 1#8 1#4 2#8)), _,
    rfl, rfl, rfl, rfl, by decide⟩
theorem test_witness_StoredWordIsFetched : ∃ s u t : State, (14#4 : RegIdx).toNat + 1 = (15#4 : RegIdx).toNat ∧
    (15#4 : RegIdx).toNat ≤ (15#4 : RegIdx).toNat ∧ exec (.storeRegs 15#4) s = .next t ∧
    u.mem = t.mem ∧ u.cfg = t.cfg ∧ u.pc = effAddr s.i (14#4 : RegIdx).toNat :=
  ⟨State.reset, (result (exec (.storeRegs 15#4) State.reset)).setPc 14#12,
    result (exec (.storeRegs 15#4) State.reset), by decide, by decide, rfl, State.setPc_mem _ _,
    State.setPc_cfg _ _, by decide⟩
theorem test_witness_CanonicalMemoryIsUnique :
    Memory.wf (Memory.write [] .default 0x300#12 5#8) .default ∧ Memory.wf [(0x300, 5#8)] .default ∧
    ∀ a : Addr, Memory.read (Memory.write [] .default 0x300#12 5#8) .default a =
      Memory.read [(0x300, 5#8)] .default a :=
  ⟨by decide, by decide, fun _ => rfl⟩
theorem test_witness_DrawRequestsPixels :
    (spritePixels [(0x300, 0x01#8)] .default 0x300#12 255#8 255#8 1)[0]? = some (262#9, 255#9) := by decide
theorem test_witness_SetPixelTogglesOnePixel :
    Display.reference.wf ∧ 63 < Display.reference.width ∧ 31 < Display.reference.height ∧
    Display.reference.pixelAt 63 31 = some 2047 ∧ Display.reference.pixelAt 64 32 = some 0 := by decide
theorem test_witness_SecondDrawCollides :
    let s := { regs 0#4 56#8 1#4 31#8 with i := 0x300#12, mem := [(0x300, 0x81#8)] }
    (0#4 : RegIdx) ≠ vF ∧ (1#4 : RegIdx) ≠ vF ∧ s.env.display.pixels = [] ∧
    (s.reg 0#4).toNat + 7 < s.env.display.width ∧ (s.reg 1#4).toNat + (1#4).toNat ≤ s.env.display.height ∧
    0 < (1#4).toNat ∧ s.readByte (effAddr s.i 0) ≠ 0#8 := by decide
theorem test_witness_KeySkips :
    (State.reset.setEnv { Env.quiet with keyAnswers := [true] }).env.keyAnswers = true :: [] := by decide
theorem test_witness_KeyEventResumes :
    (awaiting [some 0xFF#8]).keyEventDue = some 0xFF#8 ∧ (awaiting [some 0xFF#8]).mode = .awaitingKey ∧
    (State.reset.setEnv { Env.quiet with turns := [some 3#8] }).keyEventDue = some 3#8 := by decide
theorem test_witness_StepRunsDecodedInstruction : let s := looping 0xD015 State.reset
    s.mode = .running ∧ s.ctl = .loop 1 ∧ s.keyEventDue = none ∧
    decode [s.readByte s.pc, s.readByte (s.pc + 1#12)] = .ok (.draw 0#4 1#4 5#4, []) :=
  ⟨by decide, by decide, by decide, rfl⟩
theorem test_witness_IllegalWordIsReported : let s := looping 0x5AB1 { State.reset with cfg := ⟨1, .skip, .default⟩ }
    s.mode = .running ∧ s.ctl = .loop 1 ∧ s.keyEventDue = none ∧
    decode [s.readByte s.pc, s.readByte (s.pc + 1#12)] = .error (.unknownOpcode s.fetchWord) :=
  ⟨by decide, by decide, by decide, rfl⟩
theorem test_witness_TickDecrementsTimers :
    ({ State.reset with ctl := .tick } : State).keyEventDue = none ∧ State.reset.mode = .running ∧
    ({ awaiting [none] with ctl := .tick } : State).keyEventDue = none ∧
    (awaiting [none]).mode ≠ .running := by decide
theorem test_witness_AwaitingCycleOnlyRenders : let s := awaiting [none, none, none, none]
    s.mode = .awaitingKey ∧ s.ctl = .idle ∧ s.env.requests = [] ∧
      s.env.turns = none :: none :: none :: none :: [] := by decide
theorem test_witness_HaltedCycleOnlyRenders :
    halted.mode = .halted ∧ halted.ctl = .idle ∧ halted.env.requests = [] ∧ halted.env.turns = [] := by decide
theorem test_witness_HaltedIsSticky : ∃ t, halted.Inv ∧ halted.mode = .halted ∧ step halted = .next t ∧
    ∀ rs, halted.env.requests ≠ .initializeCore :: rs :=
  ⟨_, by decide, by decide, rfl, fun _ h => nomatch h⟩
theorem test_witness_StepsCarryOutCycle : ∃ t, (idle1 0x6A7F).ctl.betweenCycles = true ∧
    (idle1 0x6A7F).env.requests = [] ∧
    (∀ j : Nat, j < (idle1 0x6A7F).cfg.speed + 4 → (idle1 0x6A7F).env.turns[j]? = some none) ∧
    (idle1 0x6A7F).wholeCycle = .next t :=
  ⟨_, by decide, by decide, by decide, rfl⟩
/-- The render step: it issues the request, last before the answer, and ends the `cycle()`. -/
theorem test_witness_CycleRendersOnceLast :
    ∃ t, step { State.reset with ctl := .render } = .next t ∧ t.ctl = .idle ∧
      t.env.ports = [.dispRender, .cycleDone none] := ⟨_, rfl, rfl, rfl⟩
theorem test_witness_QuietStepsCarryOutCycle :
    let s := { idle1 0x6A7F with env := Env.quiet }
    ∃ t, s.ctl.betweenCycles = true ∧ s.env.requests = [] ∧ s.env.turns = [] ∧ s.wholeCycle = .next t ∧
      t.mode ≠ .awaitingKey :=
  ⟨_, by decide, rfl, rfl, rfl, by decide⟩
theorem test_witness_CycleBegins :
    State.reset.ctl.betweenCycles = true ∧ State.reset.keyEventDue = none ∧ State.reset.env.requests = [] ∧
    halted.ctl.betweenCycles = true ∧
    ({ halted with env := { Env.quiet with requests := [.cycle] } } : State).env.requests = .cycle :: [] := by
  decide
theorem test_witness_LoopCheckFails :
    ({ State.reset with ctl := .loop 0 } : State).keyEventDue = none ∧
    ({ awaiting [none] with ctl := .loop 3 } : State).keyEventDue = none ∧
    (awaiting [none]).mode ≠ .running := by decide
/-- Each place of the key event, its hypotheses met; `0x6A7F` is the word at `PC`. -/
theorem test_witness_KeyEventPlaceDecidesCycle :
    let s := awaiting [some 7#8, none]
    s.mode = .awaitingKey ∧ s.env.turns = some 7#8 :: none :: [] ∧
    decodeWord ({ s with ctl := .loop 1, mem := [(0x200, 0x6A#8), (0x201, 0x7F#8)] } : State).fetchWord =
      some (.loadImm 10#4 0x7F#8) := by decide
theorem test_witness_InitializeResetsCore :
    let s := { halted with env := { Env.quiet with requests := [.initializeCore, .cycle] } }
    s.ctl.betweenCycles = true ∧ s.keyEventDue = none ∧ s.env.requests = .initializeCore :: [.cycle] := by
  decide
theorem test_witness_LoadImageCopiesImage :
    let s := State.reset.setEnv { Env.quiet with requests := [.loadImage (List.replicate 3584 1#8)] }
    s.ctl = .ready false ∧ s.keyEventDue = none ∧
    s.env.requests = .loadImage (List.replicate 3584 1#8) :: [] ∧
    (List.replicate 3584 1#8).length ≤ 3584 ∧ (List.replicate 3585 1#8).length > 3584 ∧
    0x200 + (List.replicate 3584 1#8).length ≤ 4096 :=
  ⟨rfl, rfl, rfl, by rw [List.length_replicate], by rw [List.length_replicate]; decide,
    by rw [List.length_replicate]⟩
theorem test_witness_OnlyLateLoadsAreRefused :
    step { halted with env := { Env.quiet with requests := [.loadImage []] } } = .refused .loadImageAfterCycle ∧
    step { State.reset with ctl := .ready true, env := { Env.quiet with requests := [.loadImage []] } } =
      .refused .loadImageTwice := ⟨rfl, rfl⟩
theorem test_witness_BootFetchesImage : (List.replicate 3582 (0#8 : Byte)).length + 2 ≤ 3584 := by
  rw [List.length_replicate]
/-- One instruction for each clause of what instructions write. -/
theorem test_witness_OnlyListedInstructionsWrite :
    (result (exec (.loadImm 15#4 1#8) State.reset)).reg vF ≠ State.reset.reg vF ∧
    (result (exec (.loadIndex 1#12) State.reset)).i ≠ State.reset.i ∧
    (result (exec (.call 1#12) State.reset)).sp ≠ State.reset.sp ∧
    (result (exec (.call 1#12) State.reset)).stack ≠ State.reset.stack ∧
    (result (exec (.setDelay 1#4) (regs 1#4 1#8 0#4 0#8))).dt ≠ 0#8 ∧
    (result (exec (.setSound 1#4) (regs 1#4 1#8 0#4 0#8))).st ≠ 0#8 ∧
    (result (exec .ret State.reset)).mode ≠ State.reset.mode ∧
    (result (exec (.waitKey 1#4) State.reset)).waitReg ≠ State.reset.waitReg ∧
    (result (exec .ret State.reset)).fault ≠ State.reset.fault ∧
    (result (exec (.bcd 1#4) (regs 1#4 1#8 0#4 0#8))).mem ≠ State.reset.mem ∧
    (result (exec (.draw 0#4 0#4 1#4) { State.reset with i := 0x50#12 })).env.display ≠
      State.reset.env.display := by decide
theorem test_witness_InstructionsDoNotSeeControlState : ∃ t, exec (.call 1#12) State.reset = .next t := ⟨_, rfl⟩
/-- One step for each change of `MODE`. -/
theorem test_witness_ModeChangesOnlyAsListed :
    (result (step (looping 0xF20A State.reset))).mode = .awaitingKey ∧
    (result (step (awaiting [some 7#8]))).mode = .running ∧
    (result (step (looping 0x5AB1 State.reset))).mode = .halted ∧
    (result (step (looping 0x00EE State.reset))).mode = .halted ∧
    (result (step (looping 0x2300 { State.reset with sp := 16 }))).mode = .halted ∧
    (result (step { halted with env := { Env.quiet with requests := [.initializeCore] } })).mode = .running := by
  decide
/-- One step for each change of a timer. -/
theorem test_witness_TimersChangeOnlyAsListed :
    (result (step { State.reset with ctl := .tick, dt := 9#8, st := 1#8 })).dt = 8#8 ∧
    (result (step (looping 0xF115 (regs 1#4 6#8 0#4 0#8)))).dt = 6#8 ∧
    (result (step (looping 0xF118 (regs 1#4 6#8 0#4 0#8)))).st = 6#8 ∧
    (result (step { State.reset with
      dt := 5#8, st := 5#8, env := { Env.quiet with requests := [.initializeCore] } })).dt = 0#8 := by decide
theorem test_witness_StepKeepsParameters : ∃ t, step (looping 0x6A7F State.reset) = .next t := ⟨_, rfl⟩
theorem test_witness_ResetMeetsInvariant :
    State.reset.env.display.wf ∧ State.reset.cfg.fontSet.reserved ∧ otherFont.reserved := by decide
/-- A state amid a cycle, with memory and bitmap not empty, meets the invariant and steps. -/
theorem test_witness_StepKeepsInvariant :
    let s := { State.reset with
      mem := [(0x200, 0x6A#8), (0x201, 0x7F#8)], ctl := .loop 2, cfg := ⟨3, .skip, .default⟩
      env := { Env.quiet with display := { Display.reference with pixels := [0, 2047] } } }
    s.Inv ∧ ∃ t, step s = .next t :=
  ⟨by decide, _, rfl⟩

end Sys2Proof.Tests
end

/-!
PROOFS of the family `10_state.md`. First what an instruction and a step can do, each said once as an
inductive relation; then the statements, each a case split along one of the two.
-/

namespace Sys2Proof.Machine

/-! ### Facts about the state's operations -/

/-- Loading a range of registers changes the registers only. -/
theorem State.loadRange_frame (s : State) (n : Nat) :
    s.loadRange n = { s with v := (s.loadRange n).v } := by
  induction n with
  | zero => rfl
  | succ n ih => rw [State.loadRange, ih]; rfl

/-- Storing a range of registers changes memory only. -/
theorem State.storeRange_frame (s : State) (n : Nat) :
    s.storeRange n = { s with mem := (s.storeRange n).mem } := by
  induction n with
  | zero => rfl
  | succ n ih => rw [State.storeRange, ih]; rfl

/-- A register that a write to one register changes is the one written (rule R20). -/
theorem State.eq_of_reg_setReg_ne {s : State} {x r : RegIdx} {b : Byte}
    (h : (s.setReg x b).reg r ≠ s.reg r) : r = x := by
  by_contra hne
  exact h ((s.reg_setReg x r b).trans (if_neg (Ne.symm hne)))

/-- Loading `n` registers leaves the registers from number `n` on (rule R145). -/
theorem State.reg_loadRange_of_le (s : State) (r : RegIdx) :
    ∀ n : Nat, n ≤ r.toNat → (s.loadRange n).reg r = s.reg r
  | 0, _ => rfl
  | n + 1, hn => by
    have hne : BitVec.ofNat 4 n ≠ r := by bv_omega
    rw [State.loadRange, State.reg_setReg, if_neg hne, State.reg_loadRange_of_le s r n (by omega)]

/-- A skip sets `PC` and nothing else (rule R100). -/
theorem State.skipIf_eq (s : State) (c : Bool) : s.skipIf c = s.setPc (s.skipIf c).pc := by
  cases c <;> rfl

/-- Passing a boundary is a change of the collaborators' side. -/
theorem State.passBoundary_eq_setEnv (s : State) : s.passBoundary = s.setEnv s.passBoundary.env := by
  rw [State.passBoundary_frame]; rfl

/-- A timer's decrement that changes it takes away one (rule R203). -/
theorem countDown_of_ne {b : Byte} (h : countDown b ≠ b) : (countDown b).toNat + 1 = b.toNat := by
  unfold countDown at h ⊢
  split
  · bv_omega
  · simp_all

/-! ### What an instruction can do -/

/-- The effects an instruction can have on the state it is executed on, by the pieces of state they
touch (the tables of rules R20 and R21 and of spec/10_state.md, section 1). -/
inductive Effect (s : State) : Instr → State → Prop where
  /-- Only registers, those listed for the instruction; `random` also takes an answer. -/
  | registers {i : Instr} (v : Vector Byte 16) (e : Env) (display : e.display = s.env.display)
      (listed : ∀ r : RegIdx, v[r.toNat] ≠ s.reg r → i.mayWriteReg r = true) :
      Effect s i { s with v := v, env := e }
  /-- Only `PC`: jumps and skips; the key skips also take an answer. -/
  | transfer {i : Instr} (a : Addr) (e : Env) (display : e.display = s.env.display) :
      Effect s i { s with pc := a, env := e }
  /-- Only `I`. -/
  | index {i : Instr} (a : Addr)
      (listed : (∃ n, i = .loadIndex n) ∨ (∃ x, i = .addIndex x) ∨ ∃ x, i = .fontChar x) :
      Effect s i (s.setIndex a)
  /-- Only memory, which stays canonical. -/
  | store {i : Instr} (m : Memory) (listed : (∃ x, i = .bcd x) ∨ ∃ x, i = .storeRegs x)
      (wf : s.mem.wf s.cfg.fontSet → m.wf s.cfg.fontSet) : Effect s i { s with mem := m }
  | clear : Effect s .clear (s.setEnv s.env.clearDisplay)
  | draw (x y : RegIdx) (n : BitVec 4) (ps : List (Coord × Coord)) (flag : Byte) :
      Effect s (.draw x y n) ((s.setEnv (s.env.setPixels ps)).setReg vF flag)
  | ret (entry : 0 < s.sp.val) : Effect s .ret (s.drop.setPc (s.top entry))
  | underflow (empty : s.sp.val = 0) :
      Effect s .ret (s.raiseFault .stackUnderflow (encode .ret) s.fetchedFrom)
  | call (n : Addr) (room : s.sp.val < 16) : Effect s (.call n) ((s.push s.pc room).setPc n)
  | overflow (n : Addr) (full : s.sp.val = 16) :
      Effect s (.call n) (s.raiseFault .stackOverflow (encode (.call n)) s.fetchedFrom)
  | waitKey (x : RegIdx) : Effect s (.waitKey x) ((s.awaitKey x).setEnv s.env.armKeyWait)
  | setDelay (x : RegIdx) : Effect s (.setDelay x) (s.setDelay (s.reg x))
  | setSound (x : RegIdx) : Effect s (.setSound x) (s.setSound (s.reg x))

/-- Writing one listed register is an effect on registers. -/
theorem Effect.setReg {s : State} {i : Instr} {x : RegIdx} (listed : i.mayWriteReg x = true)
    (b : Byte) (e : Env) (display : e.display = s.env.display) :
    Effect s i ((s.setEnv e).setReg x b) := by
  refine .registers _ e display fun r hr => ?_
  have hx : r = x := State.eq_of_reg_setReg_ne (s := s.setEnv e) hr
  exact hx ▸ listed

/-- Writing `VF` and then one register is an effect on registers, where both are listed. -/
theorem Effect.setFlagAndReg {s : State} {i : Instr} {x : RegIdx} (flag b : Byte)
    (listedFlag : i.mayWriteReg vF = true) (listed : i.mayWriteReg x = true) :
    Effect s i ((s.setReg vF flag).setReg x b) := by
  refine .registers _ s.env rfl fun r hr => ?_
  by_cases hx : x = r
  · exact hx ▸ listed
  change ((s.setReg vF flag).setReg x b).reg r ≠ s.reg r at hr
  rw [State.reg_setReg, if_neg hx] at hr
  have hf : r = vF := State.eq_of_reg_setReg_ne hr
  exact hf ▸ listedFlag

/-- A skip is an effect on `PC`. -/
theorem Effect.skipIf {s : State} {i : Instr} (c : Bool) (e : Env)
    (display : e.display = s.env.display) : Effect s i ((s.setEnv e).skipIf c) := by
  rw [State.skipIf_eq]
  exact .transfer _ e display

/-- Everything an instruction that answers a next state can do. -/
theorem effect_of_exec {i : Instr} {s t : State} (h : exec i s = .next t) : Effect s i t := by
  cases i with
  | ret =>
    simp only [exec, execRet] at h
    split at h <;> cases h
    · exact .ret ‹_›
    · exact .underflow (by omega)
  | call n =>
    simp only [exec, execCall] at h
    split at h <;> cases h
    · exact .call n ‹_›
    · exact .overflow n (by omega)
  | clear => cases h; exact .clear
  | draw => cases h; exact .draw ..
  | jump | jumpOffset => cases h; exact .transfer _ s.env rfl
  | skipEqImm | skipNeImm | skipEqReg | skipNeReg => cases h; exact .skipIf _ s.env rfl
  | skipKeyPressed | skipKeyNotPressed => cases h; exact .skipIf _ (s.env.tookKey _) rfl
  | loadImm | addImm | move | orReg | andReg | xorReg | readDelay =>
    cases h; exact .setReg (beq_self_eq_true _) _ s.env rfl
  | random => cases h; exact .setReg (beq_self_eq_true _) _ s.env.tookRand rfl
  | addReg | subReg | shr | subnReg | shl =>
    cases h; exact .setFlagAndReg _ _ (by simp [Instr.mayWriteReg]) (by simp [Instr.mayWriteReg])
  | loadIndex n => cases h; exact .index _ (.inl ⟨n, rfl⟩)
  | addIndex x => cases h; exact .index _ (.inr (.inl ⟨x, rfl⟩))
  | fontChar x => cases h; exact .index _ (.inr (.inr ⟨x, rfl⟩))
  | waitKey => cases h; exact .waitKey _
  | setDelay => cases h; exact .setDelay _
  | setSound => cases h; exact .setSound _
  | bcd x =>
    cases h
    exact .store _ (.inl ⟨x, rfl⟩) fun hm =>
      Memory.wf_write _ _ _ _ (Memory.wf_write _ _ _ _ (Memory.wf_write _ _ _ _ hm))
  | storeRegs x =>
    cases h
    rw [State.storeRange_frame]
    exact .store _ (.inr ⟨x, rfl⟩) fun hm => Memory.wf_storeRange s hm _
  | loadRegs x =>
    cases h
    rw [State.loadRange_frame]
    refine .registers _ s.env rfl fun r hr => decide_eq_true ?_
    by_contra hlt
    exact hr (s.reg_loadRange_of_le r _ (by omega))

/-! #### What every instruction keeps -/

section
variable {i : Instr} {s t : State} (h : exec i s = .next t)
include h

/-- No instruction changes a parameter (rule R36). -/
theorem exec_cfg : t.cfg = s.cfg := by cases effect_of_exec h <;> rfl

/-- No instruction moves the controller (rule R205). -/
theorem exec_ctl : t.ctl = s.ctl := by cases effect_of_exec h <;> rfl

/-- Every instruction keeps memory canonical. -/
theorem exec_wf_mem (hm : s.mem.wf s.cfg.fontSet) : t.mem.wf t.cfg.fontSet := by
  rw [exec_cfg h]
  cases effect_of_exec h with
  | store m listed wf => exact wf hm
  | _ => exact hm

/-- Every instruction keeps the bitmap canonical: only clear and draw touch it. -/
theorem exec_wf_display (hd : s.env.display.wf) : t.env.display.wf := by
  cases effect_of_exec h with
  | registers v e display | transfer a e display => rwa [display]
  | clear => exact ⟨.nil, by simp⟩
  | draw x y n ps flag => exact Env.wf_setPixels ps s.env hd
  | _ => exact hd

/-- Every instruction keeps a record present whenever the core is Halted (rule R193). -/
theorem exec_halted_record (hf : s.mode = .halted → s.fault ≠ none) :
    t.mode = .halted → t.fault ≠ none := by
  cases effect_of_exec h with
  | underflow | overflow | waitKey => simp
  | _ => exact hf

end

/-! ### What a step can do -/

/-- The state an instruction is executed on in a step: one step counted, `PC` advanced, the boundary
passed to `e` (rules R84, R205). -/
def State.fetched (s : State) (e : Env) (left : Nat) : State :=
  ((s.setEnv e).setCtl (.loop left)).advance

@[simp] theorem State.fetched_cfg (s : State) (e : Env) (left : Nat) :
    (s.fetched e left).cfg = s.cfg := rfl

/-- The address of the instruction in progress is where `PC` was (rules R84, R193). -/
@[simp] theorem State.fetched_fetchedFrom (s : State) (e : Env) (left : Nat) :
    (s.fetched e left).fetchedFrom = s.pc := BitVec.add_sub_cancel ..

/-- What a step that answers a next state can be, where passing the boundary, taking up a request and
recording a transaction leave the collaborators' side `e` (rules R205, R206, R238). -/
inductive StepCase (s : State) (e : Env) : State → Prop where
  | keyEvent (k : Byte) (due : s.keyEventDue = some k) : StepCase s e ((s.setEnv e).resume k)
  | beginCycle (between : s.ctl.betweenCycles = true) : StepCase s e (s.setEnv e).beginCycle
  | resetCore (rs : List HostRequest) (between : s.ctl.betweenCycles = true)
      (request : s.env.requests = .initializeCore :: rs) :
      StepCase s e { State.reset with cfg := s.cfg, env := e }
  | imageTooLarge (window : s.ctl = .ready false) : StepCase s e (s.setEnv e)
  | imageLoaded (bytes : List Byte) (window : s.ctl = .ready false) :
      StepCase s e { s with
        mem := s.mem.writeBytes s.cfg.fontSet Config.programBase bytes, ctl := .ready true, env := e }
  | instruction {t : State} (left : Nat) (i : Instr) (loop : s.ctl = .loop (left + 1))
      (running : s.mode = .running) (decoded : decodeWord s.fetchWord = some i)
      (executed : exec i (s.fetched e left) = .next t) : StepCase s e t
  | illegal (left : Nat) (loop : s.ctl = .loop (left + 1)) (running : s.mode = .running)
      (undecoded : decodeWord s.fetchWord = none) :
      StepCase s e ((s.fetched e left).unknownOpcode s.fetchWord s.pc)
  | loopEnds (left : Nat) (loop : s.ctl = .loop left) : StepCase s e ((s.setEnv e).setCtl .tick)
  | tick (ctl : s.ctl = .tick) : StepCase s e (s.setEnv e).tickUnit
  | render (ctl : s.ctl = .render) : StepCase s e ((s.setEnv e).setCtl .idle)

/-- What an instruction step after the boundary can be. -/
theorem instruction_cases {s t : State} {e : Env} {left : Nat} (loop : s.ctl = .loop (left + 1))
    (running : s.mode = .running)
    (h : ((s.setEnv e).setCtl (.loop left)).instructionStep = .next t) : StepCase s e t := by
  cases hd : decodeWord s.fetchWord with
  | some i =>
    exact .instruction left i loop running hd
      ((State.instructionStep_of_decode ((s.setEnv e).setCtl (.loop left)) i hd).symm.trans h)
  | none =>
    cases (State.instructionStep_of_illegal ((s.setEnv e).setCtl (.loop left)) hd).symm.trans h
    exact .illegal left loop running hd

/-- What an image accepted or answered `ImageTooLarge` after the boundary can be (rule R71). -/
theorem loadImage_cases {s t : State} {e : Env} {bytes : List Byte} (window : s.ctl = .ready false)
    (h : (s.setEnv e).loadImage bytes = .next t) :
    ∃ p : PortEvent, StepCase s (e.record p) t := by
  simp only [State.loadImage, State.setEnv_ctl, window] at h
  split at h <;> cases h
  · exact ⟨_, .imageTooLarge window⟩
  · exact ⟨_, .imageLoaded bytes window⟩

/-- What the host's turn after the boundary can be (rule R238). -/
theorem host_cases {s t : State} {e : Env} (between : s.ctl.betweenCycles = true)
    (requests : e.requests = s.env.requests) (h : (s.setEnv e).hostUnit = .next t) :
    ∃ e' : Env, e'.display = e.display ∧ StepCase s e' t := by
  obtain ⟨-, rfl⟩ | ⟨r, rs, hr, ⟨rfl, rfl⟩ | ⟨-, rfl⟩ | ⟨bytes, -, window, h⟩⟩ :=
    State.hostUnit_cases h
  · exact ⟨e, rfl, .beginCycle between⟩
  · exact ⟨{ e with requests := rs }, rfl, .resetCore rs between (requests ▸ hr)⟩
  · exact ⟨{ e with requests := rs }, rfl, .beginCycle between⟩
  · obtain ⟨p, hp⟩ := loadImage_cases (s := s) (e := { e with requests := rs }) window h
    exact ⟨Env.record { e with requests := rs } p, rfl, hp⟩

/-- Everything a step that answers a next state can be; no step but an instruction touches the bitmap. -/
theorem step_cases {s t : State} (h : step s = .next t) :
    ∃ e : Env, e.display = s.env.display ∧ StepCase s e t := by
  have hd : s.passBoundary.env.display = s.env.display := s.passBoundary_display
  cases hk : s.keyEventDue with
  | some k =>
    rw [step_of_keyEvent s k hk, State.passBoundary_eq_setEnv] at h
    cases h
    exact ⟨s.passBoundary.env.record (.keyEvent k), hd, .keyEvent k hk⟩
  | none =>
    rw [step_of_unit s hk, State.passBoundary_eq_setEnv] at h
    obtain ⟨hc, h⟩ | ⟨left, hc, hm, h⟩ | ⟨left, hc, -, rfl⟩ | ⟨hc, rfl⟩ | ⟨hc, rfl⟩ :=
      State.coreUnit_cases h
    · have between : s.ctl.betweenCycles = true := by
        obtain ⟨l, hc⟩ | hc := hc <;> rw [show s.ctl = _ from hc] <;> rfl
      obtain ⟨e, he, hcase⟩ := host_cases between s.passBoundary_requests h
      exact ⟨e, he.trans hd, hcase⟩
    · exact ⟨_, hd, instruction_cases hc hm h⟩
    · exact ⟨_, hd, .loopEnds left hc⟩
    · exact ⟨_, hd, .tick hc⟩
    · exact ⟨s.passBoundary.env.render.record (.cycleDone s.fault), hd, .render hc⟩

/-! ### Parameters and the invariant -/

/-- Settles O51: a step only executes an instruction or updates fields beside the parameters. -/
theorem stepKeepsParameters : Obligations.StepKeepsParameters := by
  intro s t h
  obtain ⟨e, -, hcase⟩ := step_cases h
  cases hcase with
  | instruction left i _ _ _ executed =>
    exact (exec_cfg executed).trans (s.fetched_cfg e left)
  | keyEvent k due => exact State.resume_cfg _ k
  | illegal => exact State.unknownOpcode_cfg ..
  | tick => simp only [State.tickUnit]; split <;> rfl
  | _ => rfl

/-- Settles O52: memory is empty at reset, and the boot state is Running at the entry point. -/
theorem resetMeetsInvariant : Obligations.ResetMeetsInvariant :=
  ⟨by decide, fun s reserved display =>
    ⟨reserved, Memory.wf_nil _, display, nofun, rfl, rfl⟩⟩

/-- In the boot phase the core is Running at the entry point, in any other phase the clause is empty. -/
theorem State.readyAtEntry_iff (s : State) : s.readyAtEntry = true ↔
    ∀ l, s.ctl = .ready l → s.mode = .running ∧ s.pc = Config.programBase := by
  unfold State.readyAtEntry
  split <;> simp_all

/-- Outside the boot phase the entry clause holds. -/
theorem State.readyAtEntry_of_loop {s : State} {left : Nat} (h : s.ctl = .loop left) :
    s.readyAtEntry = true := by simp [State.readyAtEntry, h]

/-- Passing a boundary keeps the invariant, where it leaves the bitmap. -/
theorem State.Inv.setEnv {s : State} {e : Env} (hs : s.Inv) (display : e.display = s.env.display) :
    (s.setEnv e).Inv := by
  obtain ⟨reserved, mem, bitmap, record, within, entry⟩ := hs
  exact ⟨reserved, mem, display ▸ bitmap, record, within, entry⟩

/-- Moving the controller out of the boot phase, within `SPEED`, keeps the invariant. -/
theorem State.Inv.setCtl {s : State} {p : Phase} (hs : s.Inv) (within : p.within s.cfg.speed = true)
    (started : ∀ l, p ≠ .ready l) : (s.setCtl p).Inv := by
  obtain ⟨reserved, mem, bitmap, record, -, -⟩ := hs
  refine ⟨reserved, mem, bitmap, record, within, ?_⟩
  exact (State.readyAtEntry_iff _).mpr fun l hl => absurd hl (started l)

/-- Counting a step and advancing `PC` keep the invariant (rules R84, R205). -/
theorem State.Inv.fetched {s : State} {e : Env} {left : Nat} (hs : s.Inv)
    (display : e.display = s.env.display) (loop : s.ctl = .loop (left + 1)) :
    (s.fetched e left).Inv := by
  obtain ⟨reserved, mem, bitmap, record, within, -⟩ := hs
  have hleft : left < s.cfg.speed := by simpa [Phase.within, loop] using within
  exact ⟨reserved, mem, display ▸ bitmap, record, decide_eq_true hleft.le, rfl⟩

/-- An instruction executed in the loop keeps the invariant. -/
theorem State.Inv.exec {i : Instr} {s t : State} {left : Nat} (hs : s.Inv)
    (loop : s.ctl = .loop left) (h : exec i s = .next t) : t.Inv := by
  obtain ⟨reserved, mem, bitmap, record, within, -⟩ := hs
  have hc : t.ctl = s.ctl := exec_ctl h
  refine ⟨?_, exec_wf_mem h mem, exec_wf_display h bitmap, exec_halted_record h record, ?_,
    State.readyAtEntry_of_loop (hc.trans loop)⟩
  · rwa [exec_cfg h]
  · rwa [hc, exec_cfg h]

/-- Reporting an illegal word in the loop keeps the invariant, under both policies (rule R191). -/
theorem State.Inv.unknownOpcode {s : State} {left : Nat} (hs : s.Inv) (loop : s.ctl = .loop left)
    (w : Word) (a : Addr) : (s.unknownOpcode w a).Inv := by
  obtain ⟨reserved, mem, bitmap, -, within, -⟩ := hs
  unfold State.unknownOpcode
  split <;> exact ⟨reserved, mem, bitmap, fun _ => Option.some_ne_none _, within,
    State.readyAtEntry_of_loop loop⟩

/-- A key event keeps the invariant (rule R199): the core is Running at the end or as before. -/
theorem State.Inv.resume {s : State} (hs : s.Inv) (k : Byte) : (s.resume k).Inv := by
  obtain ⟨reserved, mem, bitmap, record, within, entry⟩ := hs
  unfold State.resume
  split
  · refine ⟨reserved, mem, bitmap, nofun, within, (State.readyAtEntry_iff _).mpr fun l hl => ?_⟩
    exact ⟨rfl, ((State.readyAtEntry_iff s).mp entry l hl).2⟩
  · exact ⟨reserved, mem, bitmap, record, within, entry⟩

/-- The tick keeps the invariant (rule R203). -/
theorem State.Inv.tickUnit {s : State} (hs : s.Inv) : s.tickUnit.Inv := by
  have ticked : (s.tickTimers.setCtl .render).Inv := hs.setCtl rfl nofun
  unfold State.tickUnit
  split
  · exact ticked
  · exact hs.setCtl rfl nofun

/-- Settles O53: each unit of the step keeps the invariant. -/
theorem stepKeepsInvariant : Obligations.StepKeepsInvariant := by
  intro s t hs h
  obtain ⟨e, display, hcase⟩ := step_cases h
  have hp : (s.setEnv e).Inv := hs.setEnv display
  cases hcase with
  | keyEvent k due => exact hp.resume k
  | beginCycle => exact hp.setCtl (decide_eq_true le_rfl) nofun
  | resetCore =>
    obtain ⟨reserved, -, bitmap, -⟩ := hp
    exact resetMeetsInvariant.2 _ reserved bitmap
  | imageTooLarge => exact hp
  | imageLoaded bytes window =>
    obtain ⟨reserved, mem, bitmap, record, -, entry⟩ := hp
    have running := (State.readyAtEntry_iff _).mp entry false window
    exact ⟨reserved, Memory.wf_writeBytes _ bytes _ _ mem, bitmap, record, rfl,
      (State.readyAtEntry_iff _).mpr fun _ _ => running⟩
  | instruction left i loop _ _ executed => exact (hs.fetched display loop).exec rfl executed
  | illegal left loop => exact (hs.fetched display loop).unknownOpcode rfl _ _
  | loopEnds | render => exact hp.setCtl rfl nofun
  | tick => exact hp.tickUnit

/-! ### Call and return -/

/-- return with an entry on the stack (rule R101). -/
theorem exec_ret_of_entry {s : State} (entry : 0 < s.sp.val) :
    exec .ret s = .next (s.drop.setPc (s.top entry)) := dif_pos entry

/-- return on an empty stack (rule R101). -/
theorem exec_ret_of_empty {s : State} (empty : ¬ 0 < s.sp.val) :
    exec .ret s = .next (s.raiseFault .stackUnderflow (encode .ret) s.fetchedFrom) := dif_neg empty

/-- return with a known entry count and top entry (rule R101). -/
theorem exec_ret_of_sp {s : State} {n : Nat} (hn : n < 16) (sp : s.sp.val = n + 1) :
    exec .ret s = .next { s with pc := s.stack[n], sp := ⟨n, by omega⟩ } := by
  have entry : 0 < s.sp.val := by omega
  simp [exec_ret_of_entry entry, State.setPc, State.drop, State.top, sp]

/-- call with room on the stack (rule R103). -/
theorem exec_call_of_room {s : State} (n : Addr) (room : s.sp.val < 16) :
    exec (.call n) s = .next ((s.push s.pc room).setPc n) := dif_pos room

/-- call on a full stack (rule R103). -/
theorem exec_call_of_full {s : State} (n : Addr) (full : ¬ s.sp.val < 16) :
    exec (.call n) s = .next (s.raiseFault .stackOverflow (encode (.call n)) s.fetchedFrom) :=
  dif_neg full

/-- Settles O11: the entry a call writes is the one return reads. -/
theorem returnUndoesCall : Obligations.ReturnUndoesCall := by
  intro s u n room
  refine ⟨_, exec_call_of_room n room, fun hsp hstack => ?_⟩
  have sp : u.sp.val = s.sp.val + 1 := congrArg Fin.val hsp
  have entry : u.stack[s.sp.val] = s.pc := by simp [hstack]
  rw [exec_ret_of_sp room sp, entry]

/-! ### What instructions write and what they see -/

/-- Settles O47: each effect touches only the pieces listed for its instruction. -/
theorem onlyListedInstructionsWrite : Obligations.OnlyListedInstructionsWrite := by
  intro i s t h
  cases effect_of_exec h with
  | registers v e display listed => exact ⟨listed, by simp [display]⟩
  | transfer a e display => simp [State.reg, display]
  | index a listed => simp [State.reg, listed]
  | store m listed wf => simp [State.reg, listed]
  | draw x y n ps flag =>
    refine ⟨fun r hr => ?_, by simp⟩
    have hf : r = vF := State.eq_of_reg_setReg_ne (s := s.setEnv _) hr
    exact hf ▸ beq_self_eq_true vF
  | _ => simp [State.reg]

/-- The state with all that no instruction sees replaced by fixed values: `ST`, the record, `WAIT_REG`,
`MODE`, the controller, `SPEED` and the policy. -/
def State.withoutControl (s : State) : State :=
  { s with
    st := 0#8, fault := none, waitReg := 0#4, mode := .running, ctl := .idle
    cfg := { s.cfg with speed := 0, policy := .halt } }

/-- An outcome, with a next state seen without what no instruction sees. -/
def outcomeWithoutControl :
    Host.Outcome State Fault Refusal → Host.Outcome State Fault Refusal
  | .next t => .next t.withoutControl
  | .fault r => .fault r
  | .refused r => .refused r

/-- A skip does not see what `withoutControl` replaces. -/
theorem State.withoutControl_skipIf (s : State) (c : Bool) :
    s.withoutControl.skipIf c = (s.skipIf c).withoutControl := by cases c <;> rfl

/-- Storing registers does not see what `withoutControl` replaces. -/
theorem State.withoutControl_storeRange (s : State) (n : Nat) :
    s.withoutControl.storeRange n = (s.storeRange n).withoutControl := by
  induction n with
  | zero => rfl
  | succ n ih => rw [State.storeRange, ih]; rfl

/-- Loading registers does not see what `withoutControl` replaces. -/
theorem State.withoutControl_loadRange (s : State) (n : Nat) :
    s.withoutControl.loadRange n = (s.loadRange n).withoutControl := by
  induction n with
  | zero => rfl
  | succ n ih => rw [State.loadRange, ih]; rfl

/-- Executing an instruction and then replacing what it does not see gives the same whether or not that
was replaced before. -/
theorem exec_withoutControl (i : Instr) (s : State) :
    outcomeWithoutControl (exec i s.withoutControl) = outcomeWithoutControl (exec i s) := by
  cases i with
  | ret =>
    by_cases entry : 0 < s.sp.val
    · rw [exec_ret_of_entry (s := s.withoutControl) entry, exec_ret_of_entry entry]; rfl
    · rw [exec_ret_of_empty (s := s.withoutControl) entry, exec_ret_of_empty entry]; rfl
  | call n =>
    by_cases room : s.sp.val < 16
    · rw [exec_call_of_room (s := s.withoutControl) n room, exec_call_of_room n room]; rfl
    · rw [exec_call_of_full (s := s.withoutControl) n room, exec_call_of_full n room]; rfl
  | skipEqImm | skipNeImm | skipEqReg | skipNeReg =>
    exact congrArg (fun u => Host.Outcome.next u.withoutControl) (s.withoutControl_skipIf _)
  | skipKeyPressed x | skipKeyNotPressed x =>
    exact congrArg (fun u => Host.Outcome.next u.withoutControl)
      ((s.setEnv (s.env.tookKey (s.reg x))).withoutControl_skipIf _)
  | storeRegs x =>
    exact congrArg (fun u => Host.Outcome.next u.withoutControl)
      (s.withoutControl_storeRange (x.toNat + 1))
  | loadRegs x =>
    exact congrArg (fun u => Host.Outcome.next u.withoutControl)
      (s.withoutControl_loadRange (x.toNat + 1))
  | _ => rfl

/-- Two states that agree but for what no instruction sees go to two that agree so. -/
theorem exec_congr {i : Instr} {s s' t : State} (same : s'.withoutControl = s.withoutControl)
    (h : exec i s = .next t) :
    ∃ t', exec i s' = .next t' ∧ t'.withoutControl = t.withoutControl := by
  have seen : outcomeWithoutControl (exec i s') = .next t.withoutControl := by
    rw [← exec_withoutControl, same, exec_withoutControl, h]; rfl
  cases h' : exec i s' with
  | next t' => rw [h'] at seen; exact ⟨t', rfl, Host.Outcome.next.inj seen⟩
  | fault r | refused r => rw [h'] at seen; cases seen

/-- Settles O48: the two states agree but for what no instruction sees. -/
theorem instructionsDoNotSeeControlState : Obligations.InstructionsDoNotSeeControlState := by
  intro i s t st' f w m p speed policy h
  obtain ⟨t', ht', same⟩ := exec_congr (s := s) (s' := { s with
    st := st', fault := f, waitReg := w, mode := m, ctl := p
    cfg := { s.cfg with speed := speed, policy := policy } }) rfl h
  obtain ⟨v, index, pc, sp, stack, dt, -, -, -, -, mem, -, -, env⟩ := State.mk.inj same
  exact ⟨t', ht', v, index, pc, sp, stack, dt, mem, env⟩

/-! ### Changes of `MODE` -/

/-- The instructions that can raise a stack fault: return and call (rule R192). -/
def usesStack : Instr → Bool
  | .ret | .call _ => true
  | _ => false

theorem decodeFamily8_usesStack {x y n : BitVec 4} {i : Instr} (h : decodeFamily8 x y n = some i) :
    usesStack i = false := by
  unfold decodeFamily8 at h
  split at h <;> cases h <;> rfl

theorem decodeFamilyE_usesStack {x : RegIdx} {kk : Byte} {i : Instr}
    (h : decodeFamilyE x kk = some i) : usesStack i = false := by
  unfold decodeFamilyE at h
  split_ifs at h <;> cases h <;> rfl

theorem decodeFamilyF_usesStack {x : RegIdx} {kk : Byte} {i : Instr}
    (h : decodeFamilyF x kk = some i) : usesStack i = false := by
  unfold decodeFamilyF at h
  split_ifs at h <;> cases h <;> rfl

/-- A word of family 2 is the call of its address (rules R82, R86). -/
theorem encode_call_nnn {w : Word} (op : (Word.op w).toNat = 2) : encode (.call (Word.nnn w)) = w := by
  have fields : Word.op w ++ Word.nnn w = w :=
    (BitVec.extractLsb'_append_extractLsb'_eq_extractLsb' rfl).trans BitVec.extractLsb'_eq_self
  have op2 : Word.op w = 2#4 := BitVec.eq_of_toNat_eq op
  rwa [op2] at fields

/-- A word that decodes to return or call is that instruction's encoding (rules R85, R86). -/
theorem encode_of_decodeWord_usesStack {w : Word} {i : Instr} (h : decodeWord w = some i)
    (stack : usesStack i = true) : encode i = w := by
  unfold decodeWord at h
  split at h
  · unfold decodeFamily0 at h
    split_ifs at h with clear ret <;> cases h
    · cases stack
    · exact ret.symm
  case h_3 op => cases h; exact encode_call_nnn op
  case h_9 => rw [decodeFamily8_usesStack h] at stack; cases stack
  case h_15 => rw [decodeFamilyE_usesStack h] at stack; cases stack
  case h_16 => rw [decodeFamilyF_usesStack h] at stack; cases stack
  case h_6 | h_10 => split_ifs at h; cases h; cases stack
  all_goals cases h; cases stack

/-- The ways an instruction changes `MODE` (rules R173, R192). -/
theorem exec_mode_cases {i : Instr} {s t : State} (h : exec i s = .next t) (changed : t.mode ≠ s.mode) :
    (∃ x, i = .waitKey x ∧ t.mode = .awaitingKey ∧ t.waitReg = x) ∨
    (t.mode = .halted ∧ usesStack i = true ∧ ∃ c, t.fault = some ⟨c, encode i, s.fetchedFrom⟩ ∧
      ((i = .ret ∧ s.sp.val = 0 ∧ c = .stackUnderflow) ∨
        ∃ n, i = .call n ∧ s.sp.val = 16 ∧ c = .stackOverflow)) := by
  cases effect_of_exec h with
  | waitKey x => exact .inl ⟨x, rfl, rfl, rfl⟩
  | underflow empty => exact .inr ⟨rfl, rfl, _, rfl, .inl ⟨rfl, empty, rfl⟩⟩
  | overflow n full => exact .inr ⟨rfl, rfl, _, rfl, .inr ⟨n, rfl, full, rfl⟩⟩
  | _ => exact absurd rfl changed

/-- The tick leaves `MODE`. -/
theorem State.tickUnit_mode (s : State) : s.tickUnit.mode = s.mode := by
  unfold State.tickUnit
  split <;> rfl

/-- Settles O49: `MODE` changes by the key event, an instruction, an illegal word, or the reset request. -/
theorem modeChangesOnlyAsListed : Obligations.ModeChangesOnlyAsListed := by
  intro s t h changed
  obtain ⟨e, -, hcase⟩ := step_cases h
  cases hcase with
  | keyEvent k due =>
    have awaiting : s.mode = .awaitingKey := by
      by_contra hne
      exact changed (((s.setEnv e).resume_mode k).trans (if_neg hne))
    have resumed : (s.setEnv e).resume k = { (s.setEnv e).setReg s.waitReg k with mode := .running } :=
      if_pos awaiting
    rw [resumed]
    exact .inr (.inl ⟨awaiting, rfl, k, due, ((s.setEnv e).reg_setReg _ _ k).trans (if_pos rfl)⟩)
  | resetCore rs between request => exact .inr (.inr (.inr ⟨rfl, between, rs, request⟩))
  | instruction left i loop running decoded executed =>
    obtain ⟨x, rfl, awaiting, captured⟩ | ⟨halted, stack, c, record, cause⟩ :=
      exec_mode_cases executed changed
    · exact .inl ⟨running, awaiting, x, decoded, captured⟩
    · rw [encode_of_decodeWord_usesStack decoded stack, State.fetched_fetchedFrom] at record
      refine .inr (.inr (.inl ⟨running, halted, c, record, .inr ?_⟩))
      obtain ⟨rfl, empty, rfl⟩ | ⟨n, rfl, full, rfl⟩ := cause
      · exact .inl ⟨decoded, empty, rfl⟩
      · exact .inr ⟨n, decoded, full, rfl⟩
  | illegal left loop running undecoded =>
    have mode := (s.fetched e left).unknownOpcode_mode s.fetchWord s.pc
    have policy : s.cfg.policy = .halt := by
      by_contra hne
      exact changed (mode.trans (if_neg hne))
    exact .inr (.inr (.inl ⟨running, mode.trans (if_pos policy), _, State.unknownOpcode_fault ..,
      .inl ⟨undecoded, policy, rfl⟩⟩))
  | tick => exact absurd (State.tickUnit_mode _) changed
  | _ => exact absurd rfl changed

/-! ### Changes of the timers -/

/-- An instruction that changes `DT` is set-delay. -/
theorem exec_dt_cases {i : Instr} {s t : State} (h : exec i s = .next t) (changed : t.dt ≠ s.dt) :
    ∃ x, i = .setDelay x ∧ t.dt = s.reg x := by
  cases effect_of_exec h with
  | setDelay x => exact ⟨x, rfl, rfl⟩
  | _ => exact absurd rfl changed

/-- An instruction that changes `ST` is set-sound. -/
theorem exec_st_cases {i : Instr} {s t : State} (h : exec i s = .next t) (changed : t.st ≠ s.st) :
    ∃ x, i = .setSound x ∧ t.st = s.reg x := by
  cases effect_of_exec h with
  | setSound x => exact ⟨x, rfl, rfl⟩
  | _ => exact absurd rfl changed

/-- A tick that changes a timer comes while Running and takes away one (rules R203, R205). -/
theorem State.tickUnit_timers (s : State) :
    (s.tickUnit.dt ≠ s.dt → s.mode = .running ∧ s.tickUnit.dt.toNat + 1 = s.dt.toNat) ∧
    (s.tickUnit.st ≠ s.st → s.mode = .running ∧ s.tickUnit.st.toNat + 1 = s.st.toNat) := by
  unfold State.tickUnit
  split
  · exact ⟨fun hdt => ⟨‹_›, countDown_of_ne hdt⟩, fun hst => ⟨‹_›, countDown_of_ne hst⟩⟩
  · exact ⟨fun hdt => absurd rfl hdt, fun hst => absurd rfl hst⟩

/-- Settles O50: the timers change by the tick unit, an instruction, or the reset request. -/
theorem timersChangeOnlyAsListed : Obligations.TimersChangeOnlyAsListed := by
  intro s t h
  obtain ⟨e, -, hcase⟩ := step_cases h
  cases hcase with
  | tick ctl =>
    obtain ⟨hdt, hst⟩ := (s.setEnv e).tickUnit_timers
    exact ⟨fun changed => .inl ⟨ctl, hdt changed⟩, fun changed => .inl ⟨ctl, hst changed⟩⟩
  | instruction left i loop running decoded executed =>
    refine ⟨fun changed => ?_, fun changed => ?_⟩
    · obtain ⟨x, rfl, value⟩ := exec_dt_cases executed changed
      exact .inr (.inl ⟨x, decoded, value⟩)
    · obtain ⟨x, rfl, value⟩ := exec_st_cases executed changed
      exact .inr (.inl ⟨x, decoded, value⟩)
  | resetCore rs between request =>
    exact ⟨fun _ => .inr (.inr ⟨rfl, rs, request⟩), fun _ => .inr (.inr ⟨rfl, rs, request⟩)⟩
  | keyEvent k =>
    exact ⟨fun changed => absurd (State.resume_dt _ k) changed,
      fun changed => absurd (State.resume_st _ k) changed⟩
  | illegal =>
    exact ⟨fun changed => absurd (State.unknownOpcode_dt ..) changed,
      fun changed => absurd (State.unknownOpcode_st ..) changed⟩
  | _ => exact ⟨fun changed => absurd rfl changed, fun changed => absurd rfl changed⟩

end Sys2Proof.Machine

/-!
PROOFS of the family `20_memory.md`. First what the fetch, the register store, the canonical form and the
host's requests do, each said once; the statements follow from these.
-/

namespace Sys2Proof.Machine

/-! ### Words and effective addresses -/

/-- The number of the word two bytes form: the first byte is the high one (rule R63). -/
theorem toNat_wordOfBytes (hi lo : Byte) : (wordOfBytes hi lo).toNat = hi.toNat * 256 + lo.toNat := by
  rw [wordOfBytes, BitVec.toNat_append, ← Nat.shiftLeft_add_eq_or_of_lt lo.isLt, Nat.shiftLeft_eq]

/-- The word at `PC`, as a number (rules R63, R65). -/
theorem State.toNat_fetchWord (s : State) :
    s.fetchWord.toNat = (s.readByte s.pc).toNat * 256 + (s.readByte (s.pc + 1#12)).toNat :=
  toNat_wordOfBytes ..

/-- An address is the effective address of its distance from `I`, and of no other offset below the
size of memory (rule R62). -/
theorem eq_effAddr_iff {a i : Addr} {k : Nat} (hk : k < 4096) :
    a = effAddr i k ↔ (a - i).toNat = k := by
  unfold effAddr
  bv_omega

/-- Adding one to an effective address gives the next one (rule R62). -/
theorem effAddr_succ (i : Addr) (k : Nat) : effAddr i k + 1#12 = effAddr i (k + 1) := by
  unfold effAddr
  bv_omega

/-- Settles O19: both sums are sums of 12-bit words. -/
theorem addressesWrap : Obligations.AddressesWrap := by
  refine ⟨fun i k => ?_, fun s => ⟨s.pc + 1#12, BitVec.toNat_add .., s.toNat_fetchWord⟩⟩
  simp [effAddr]

/-! ### Storing registers -/

/-- A byte read after a write of one byte (rule R67). -/
theorem State.readByte_writeByte (s : State) (a b : Addr) (v : Byte) :
    (s.writeByte a v).readByte b = if b = a then v else s.readByte b :=
  Memory.read_write ..

/-- What storing a range of registers leaves in memory: the register at each offset from `I` within
the range, the old byte at every other address (rule R144). -/
theorem State.readByte_storeRange (s : State) (a : Addr) : ∀ n : Nat, n ≤ 4096 →
    (s.storeRange n).readByte a =
      if (a - s.i).toNat < n then s.reg (BitVec.ofNat 4 (a - s.i).toNat) else s.readByte a
  | 0, _ => rfl
  | n + 1, hn => by
    rw [State.storeRange, State.readByte_writeByte, State.readByte_storeRange s a n (by omega)]
    simp only [eq_effAddr_iff hn]
    by_cases here : (a - s.i).toNat = n
    · simp [here]
    · have range : (a - s.i).toNat < n + 1 ↔ (a - s.i).toNat < n := by omega
      simp only [here, range, if_false]

/-- A register stored in the range is read back at its offset from `I` (rule R144). -/
theorem State.readByte_storeRange_effAddr (s : State) {r : RegIdx} {n : Nat} (hr : r.toNat < n)
    (hn : n ≤ 4096) : (s.storeRange n).readByte (effAddr s.i r.toNat) = s.reg r := by
  have offset : (effAddr s.i r.toNat - s.i).toNat = r.toNat := (eq_effAddr_iff (by omega)).mp rfl
  rw [State.readByte_storeRange s _ n hn, offset, if_pos hr, BitVec.ofNat_toNat, BitVec.setWidth_eq]

/-- Settles O24: the two bytes of the fetch are the two registers stored. -/
theorem storedWordIsFetched : Obligations.StoredWordIsFetched := by
  intro s x r r' next last
  refine ⟨s.storeRange (x.toNat + 1), rfl, fun u mem cfg pc => ?_⟩
  have read (a : Addr) : u.readByte a = (s.storeRange (x.toNat + 1)).readByte a := by
    rw [State.readByte, mem, cfg, State.readByte]
  have size : x.toNat + 1 ≤ 4096 := by omega
  rw [State.toNat_fetchWord, read, read, pc, effAddr_succ, next,
    State.readByte_storeRange_effAddr s (by omega) size,
    State.readByte_storeRange_effAddr s (by omega) size]

/-! ### The canonical form of memory -/

/-- Where addresses rise strictly, the cell listed for an address is the one a lookup finds. -/
theorem Memory.lookup_of_mem (f : FontSet) {m : Memory} (rising : m.Pairwise (fun c d => c.1 < d.1))
    {c : Host.Cell} (hc : c ∈ m) : Memory.lookup f m c.1 = c.2 := by
  induction rising with
  | nil => cases hc
  | @cons d m before _ ih =>
    obtain rfl | hc := List.mem_cons.mp hc
    · exact if_pos rfl
    · exact (if_neg (before c hc).ne).trans (ih hc)

/-- An address that does not read as unlisted has a cell, with the byte a lookup finds. -/
theorem Memory.mem_of_lookup_ne (f : FontSet) {m : Memory} {a : Nat}
    (ne : Memory.lookup f m a ≠ Memory.unlisted f a) : (a, Memory.lookup f m a) ∈ m := by
  induction m with
  | nil => exact absurd rfl ne
  | cons d m ih =>
    unfold Memory.lookup at ne ⊢
    split at ne
    next here => rw [if_pos here, ← here]; exact List.mem_cons_self
    next there => rw [if_neg there]; exact List.mem_cons_of_mem d (ih ne)

/-- The cells of a canonical memory are given by what it reads: one for each address that does not read
as unlisted. -/
theorem Memory.mem_iff_of_wf {f : FontSet} {m : Memory} (wf : m.wf f) (c : Host.Cell) :
    c ∈ m ↔ c.1 < Config.memSize ∧ c.2 ≠ Memory.unlisted f c.1 ∧ Memory.lookup f m c.1 = c.2 := by
  obtain ⟨rising, cells⟩ := wf
  constructor
  · intro hc
    obtain ⟨inside, changed⟩ := cells c hc
    exact ⟨inside, changed, Memory.lookup_of_mem f rising hc⟩
  · rintro ⟨-, changed, read⟩
    rw [← read] at changed
    simpa [read] using Memory.mem_of_lookup_ne f changed

/-- Settles O25: the two memories have the same cells, in the same order. -/
theorem canonicalMemoryIsUnique : Obligations.CanonicalMemoryIsUnique := by
  intro f m m' wf wf' same
  have lookup {a : Nat} (inside : a < Config.memSize) : Memory.lookup f m a = Memory.lookup f m' a := by
    have h := same (BitVec.ofNat 12 a)
    rwa [Memory.read, Memory.read, BitVec.toNat_ofNat, Nat.mod_eq_of_lt (show a < 2 ^ 12 from inside)] at h
  have cells (c : Host.Cell) : c ∈ m ↔ c ∈ m' := by
    rw [Memory.mem_iff_of_wf wf, Memory.mem_iff_of_wf wf']
    exact and_congr_right fun inside => by rw [lookup inside]
  have : Std.Irrefl fun c d : Host.Cell => c.1 < d.1 := ⟨fun c => lt_irrefl c.1⟩
  have : Std.Antisymm fun c d : Host.Cell => c.1 < d.1 := ⟨fun c d h h' => absurd h h'.asymm⟩
  obtain ⟨rising, -⟩ := wf
  obtain ⟨rising', -⟩ := wf'
  exact rising.eq_of_mem_iff rising' cells

/-! ### Host requests -/

/-- The three places of the controller between two cycles (rule R232). -/
theorem Phase.betweenCycles_cases {p : Phase} (between : p.betweenCycles = true) :
    p = .idle ∨ p = .ready true ∨ p = .ready false := by
  cases p with
  | idle => exact .inl rfl
  | ready loaded => cases loaded <;> simp
  | loop | tick | render => cases between

/-- Between two cycles, a step with no key event due is the host's turn (rules R206, R238). -/
theorem step_of_betweenCycles {s : State} (between : s.ctl.betweenCycles = true)
    (quiet : s.keyEventDue = none) : step s = s.passBoundary.hostUnit := by
  rw [step_of_unit s quiet, State.coreUnit, State.passBoundary_ctl]
  obtain hc | hc | hc := Phase.betweenCycles_cases between <;> simp only [hc]

/-- The step that takes up the host's coming request (rule R238). -/
theorem step_of_request {s : State} {r : HostRequest} {rs : List HostRequest}
    (between : s.ctl.betweenCycles = true) (quiet : s.keyEventDue = none)
    (request : s.env.requests = r :: rs) :
    step s = (s.setEnv { s.env with
      requests := rs, turns := s.env.turns.tail, draws := s.passBoundary.env.draws }).serve r := by
  have served : s.passBoundary.hostUnit =
      (s.passBoundary.setEnv { s.passBoundary.env with requests := rs }).serve r := by
    simp only [State.hostUnit, State.passBoundary_requests, request]
  rw [step_of_betweenCycles between quiet, served, State.passBoundary_frame]
  rfl

/-- The step in which the host, asking for nothing else, begins a cycle (log 18). -/
theorem step_of_noRequest {s : State} (between : s.ctl.betweenCycles = true)
    (quiet : s.keyEventDue = none) (noRequest : s.env.requests = []) :
    step s = .next s.passBoundary.beginCycle := by
  rw [step_of_betweenCycles between quiet]
  simp only [State.hostUnit, State.passBoundary_requests, noRequest]

section
variable {s : State} {bytes : List Byte}

/-- An image over the limit is answered `ImageTooLarge` (rule R71). -/
theorem State.loadImage_of_tooLarge (window : s.ctl = .ready false) (large : bytes.length > 3584) :
    s.loadImage bytes = .next (s.setEnv (s.env.record (.loadFailed .imageTooLarge))) := by
  simp only [State.loadImage, window]
  exact if_pos large

/-- An image within the limit is copied and answered `ok` (rule R71). -/
theorem State.loadImage_of_fits (window : s.ctl = .ready false) (fits : bytes.length ≤ 3584) :
    s.loadImage bytes = .next { s with
      mem := s.mem.writeBytes s.cfg.fontSet Config.programBase bytes
      ctl := .ready true
      env := s.env.record .loadOk } := by
  simp only [State.loadImage, window]
  exact if_neg fits.not_gt

/-- After an image was accepted, `loadImage` is refused (U17). -/
theorem State.loadImage_of_loaded (loaded : s.ctl = .ready true) :
    s.loadImage bytes = .refused .loadImageTwice := by
  simp only [State.loadImage, loaded]

/-- After a `cycle()`, `loadImage` is refused (rule R232). -/
theorem State.loadImage_of_idle (idle : s.ctl = .idle) :
    s.loadImage bytes = .refused .loadImageAfterCycle := by
  simp only [State.loadImage, idle]

end

/-- A loaded image lies byte by byte from `0x200` on (rule R71). -/
theorem Memory.read_writeBytes_image (f : FontSet) (m : Memory) {bytes : List Byte}
    (fits : bytes.length ≤ 3584) {k : Nat} (hk : k < bytes.length) :
    (m.writeBytes f Config.programBase bytes).read f (BitVec.ofNat 12 (0x200 + k)) = bytes[k] := by
  have offset : (BitVec.ofNat 12 (0x200 + k) - Config.programBase).toNat = k := by
    unfold Config.programBase
    bv_omega
  rw [Memory.read_writeBytes f bytes m _ _ (by omega), offset, List.getElem?_eq_getElem hk,
    Option.getD_some]

/-- Loading an image leaves every byte below `0x200` and beyond the image (rule R71). -/
theorem Memory.read_writeBytes_outside (f : FontSet) (m : Memory) {bytes : List Byte}
    (fits : bytes.length ≤ 3584) {a : Addr}
    (outside : a.toNat < 0x200 ∨ 0x200 + bytes.length ≤ a.toNat) :
    (m.writeBytes f Config.programBase bytes).read f a = m.read f a := by
  have offset : bytes.length ≤ (a - Config.programBase).toNat := by
    unfold Config.programBase
    bv_omega
  rw [Memory.read_writeBytes f bytes m _ _ (by omega), List.getElem?_eq_none offset,
    Option.getD_none]

/-- Settles O43: the two lengths are the two answers of `loadImage`. -/
theorem loadImageCopiesImage : Obligations.LoadImageCopiesImage := by
  intro s bytes rs window quiet request
  have taken := step_of_request (by rw [window]; rfl) quiet request
  refine ⟨_, _, fun large => taken.trans (State.loadImage_of_tooLarge window large), fun fits =>
    ⟨_, taken.trans (State.loadImage_of_fits window fits), fun k hk => ?_, fun a outside => ?_⟩⟩
  · exact Memory.read_writeBytes_image _ _ fits hk
  · exact Memory.read_writeBytes_outside _ _ fits outside

/-! ### Steps that answer a next state, and those refused -/

/-- Every instruction answers a next state (rule R190). -/
theorem exec_completes (i : Instr) (s : State) : ∃ t, exec i s = .next t := by
  cases i with
  | ret =>
    by_cases entry : 0 < s.sp.val
    · exact ⟨_, exec_ret_of_entry entry⟩
    · exact ⟨_, exec_ret_of_empty entry⟩
  | call n =>
    by_cases room : s.sp.val < 16
    · exact ⟨_, exec_call_of_room n room⟩
    · exact ⟨_, exec_call_of_full n room⟩
  | _ => exact ⟨_, rfl⟩

/-- An instruction step answers a next state, whatever the word at `PC` (rules R84, R191). -/
theorem State.instructionStep_completes (s : State) : ∃ t, s.instructionStep = .next t := by
  cases hd : decodeWord s.fetchWord with
  | some i => rw [s.instructionStep_of_decode i hd]; exact exec_completes i s.advance
  | none => exact ⟨_, s.instructionStep_of_illegal hd⟩

/-- A loop check answers a next state, with and without an iteration (rule R205). -/
theorem State.loopUnit_completes (s : State) (left : Nat) : ∃ t, s.loopUnit left = .next t := by
  cases left with
  | zero => exact ⟨_, rfl⟩
  | succ left =>
    simp only [State.loopUnit]
    split
    · exact State.instructionStep_completes _
    · exact ⟨_, rfl⟩

/-- A unit of a cycle answers a next state (rules R205, R206). -/
theorem State.coreUnit_completes {s : State} (cycle : s.ctl.betweenCycles = false) :
    ∃ t, s.coreUnit = .next t := by
  unfold State.coreUnit
  cases hc : s.ctl with
  | ready | idle => rw [hc] at cycle; cases cycle
  | loop left => exact s.loopUnit_completes left
  | tick | render => exact ⟨_, rfl⟩

/-- A late or second `loadImage` taken up by a step is refused by name (R232, U17). -/
theorem step_refuses_lateLoad {s : State} {bytes : List Byte} {rs : List HostRequest}
    (quiet : s.keyEventDue = none) (request : s.env.requests = .loadImage bytes :: rs) :
    (s.ctl = .idle → step s = .refused .loadImageAfterCycle) ∧
    (s.ctl = .ready true → step s = .refused .loadImageTwice) := by
  constructor
  · intro idle
    exact (step_of_request (by rw [idle]; rfl) quiet request).trans (State.loadImage_of_idle idle)
  · intro loaded
    exact (step_of_request (by rw [loaded]; rfl) quiet request).trans (State.loadImage_of_loaded loaded)

/-- An image in the window is answered, `ok` or `ImageTooLarge`, and never refused (rule R71). -/
theorem State.loadImage_completes {s : State} (window : s.ctl = .ready false) (bytes : List Byte) :
    ∃ t, s.loadImage bytes = .next t := by
  by_cases fits : bytes.length ≤ 3584
  · exact ⟨_, State.loadImage_of_fits window fits⟩
  · exact ⟨_, State.loadImage_of_tooLarge window (not_le.mp fits)⟩

/-- Settles O44: of the host's requests only `loadImage` can be refused, and only outside its window. -/
theorem onlyLateLoadsAreRefused : Obligations.OnlyLateLoadsAreRefused := by
  refine ⟨fun s => ?_, fun _ _ _ => step_refuses_lateLoad⟩
  cases quiet : s.keyEventDue with
  | some k => exact .inl ⟨_, step_of_keyEvent s k quiet⟩
  | none =>
    cases between : s.ctl.betweenCycles with
    | false =>
      rw [step_of_unit s quiet]
      exact .inl (State.coreUnit_completes (by rwa [State.passBoundary_ctl]))
    | true =>
      cases request : s.env.requests with
      | nil => exact .inl ⟨_, step_of_noRequest between quiet request⟩
      | cons r rs =>
        have taken := step_of_request between quiet request
        cases r with
        | initializeCore | cycle => exact .inl ⟨_, taken⟩
        | loadImage bytes =>
          obtain ⟨afterCycle, twice⟩ := step_refuses_lateLoad quiet request
          obtain idle | loaded | window := Phase.betweenCycles_cases between
          · exact .inr ⟨bytes, rs, rfl, .inl ⟨idle, afterCycle idle⟩⟩
          · exact .inr ⟨bytes, rs, rfl, .inr ⟨loaded, twice loaded⟩⟩
          · rw [taken]
            refine .inl (State.loadImage_completes ?_ bytes)
            exact window

end Sys2Proof.Machine

/-!
PROOFS of the family `30_encoding.md`. First the fields of a word and the words of the three formats, as
numbers and as inverses of each other; then the decoder family by family.
-/

namespace Sys2Proof

/-! ### The fields of a word as numbers (rule R81) -/

section
variable (w : Word)

theorem Word.toNat_op : (Word.op w).toNat = w.toNat / 4096 := by
  have below := w.isLt
  simp only [Word.op, BitVec.extractLsb'_toNat, Nat.shiftRight_eq_div_pow]
  omega

theorem Word.toNat_x : (Word.x w).toNat = w.toNat / 256 % 16 := by
  simp [Word.x, Nat.shiftRight_eq_div_pow]

theorem Word.toNat_y : (Word.y w).toNat = w.toNat / 16 % 16 := by
  simp [Word.y, Nat.shiftRight_eq_div_pow]

theorem Word.toNat_n : (Word.n w).toNat = w.toNat % 16 := by simp [Word.n]

theorem Word.toNat_kk : (Word.kk w).toNat = w.toNat % 256 := by simp [Word.kk]

theorem Word.toNat_nnn : (Word.nnn w).toNat = w.toNat % 4096 := by simp [Word.nnn]

end

/-- Settles O2: each field is a quotient and a remainder of the word. -/
theorem fieldsOfWord : Obligations.FieldsOfWord := by
  intro w
  simp only [Word.toNat_op, Word.toNat_x, Word.toNat_y, Word.toNat_n, Word.toNat_kk, Word.toNat_nnn,
    true_and]
  omega

/-! ### The words of the formats as numbers (rule R82) -/

/-- Concatenation as a number: the left part counts multiples of the right part's size. -/
theorem toNat_append {m n : Nat} (a : BitVec m) (b : BitVec n) :
    (a ++ b).toNat = a.toNat * 2 ^ n + b.toNat := by
  rw [BitVec.toNat_append, ← Nat.shiftLeft_add_eq_or_of_lt b.isLt, Nat.shiftLeft_eq]

theorem toNat_encodeNNN (op : BitVec 4) (nnn : Addr) :
    (encodeNNN op nnn).toNat = op.toNat * 4096 + nnn.toNat :=
  toNat_append ..

theorem toNat_encodeXKK (op : BitVec 4) (x : RegIdx) (kk : Byte) :
    (encodeXKK op x kk).toNat = (op.toNat * 16 + x.toNat) * 256 + kk.toNat := by
  simp only [encodeXKK, toNat_append, Nat.reducePow]

theorem toNat_encodeXYN (op : BitVec 4) (x y : RegIdx) (n : BitVec 4) :
    (encodeXYN op x y n).toNat = ((op.toNat * 16 + x.toNat) * 16 + y.toNat) * 16 + n.toNat := by
  simp only [encodeXYN, toNat_append, Nat.reducePow]

/-! ### A format's word has the fields it was built from -/

section
variable (op x y n : BitVec 4) (kk : Byte) (nnn : Addr)

@[simp] theorem Word.op_encodeNNN : Word.op (encodeNNN op nnn) = op :=
  BitVec.eq_of_toNat_eq (by rw [Word.toNat_op, toNat_encodeNNN]; omega)

@[simp] theorem Word.nnn_encodeNNN : Word.nnn (encodeNNN op nnn) = nnn :=
  BitVec.eq_of_toNat_eq (by rw [Word.toNat_nnn, toNat_encodeNNN]; omega)

@[simp] theorem Word.op_encodeXKK : Word.op (encodeXKK op x kk) = op :=
  BitVec.eq_of_toNat_eq (by rw [Word.toNat_op, toNat_encodeXKK]; omega)

@[simp] theorem Word.x_encodeXKK : Word.x (encodeXKK op x kk) = x :=
  BitVec.eq_of_toNat_eq (by rw [Word.toNat_x, toNat_encodeXKK]; omega)

@[simp] theorem Word.kk_encodeXKK : Word.kk (encodeXKK op x kk) = kk :=
  BitVec.eq_of_toNat_eq (by rw [Word.toNat_kk, toNat_encodeXKK]; omega)

@[simp] theorem Word.op_encodeXYN : Word.op (encodeXYN op x y n) = op :=
  BitVec.eq_of_toNat_eq (by rw [Word.toNat_op, toNat_encodeXYN]; omega)

@[simp] theorem Word.x_encodeXYN : Word.x (encodeXYN op x y n) = x :=
  BitVec.eq_of_toNat_eq (by rw [Word.toNat_x, toNat_encodeXYN]; omega)

@[simp] theorem Word.y_encodeXYN : Word.y (encodeXYN op x y n) = y :=
  BitVec.eq_of_toNat_eq (by rw [Word.toNat_y, toNat_encodeXYN]; omega)

@[simp] theorem Word.n_encodeXYN : Word.n (encodeXYN op x y n) = n :=
  BitVec.eq_of_toNat_eq (by rw [Word.toNat_n, toNat_encodeXYN]; omega)

end

/-! ### A word is every format's word of its own fields -/

section
variable {w : Word} {op : BitVec 4} (family : (Word.op w).toNat = op.toNat)
include family

theorem encodeNNN_fields : encodeNNN op (Word.nnn w) = w := by
  apply BitVec.eq_of_toNat_eq
  rw [toNat_encodeNNN, ← family, Word.toNat_op, Word.toNat_nnn]
  omega

theorem encodeXKK_fields : encodeXKK op (Word.x w) (Word.kk w) = w := by
  apply BitVec.eq_of_toNat_eq
  rw [toNat_encodeXKK, ← family, Word.toNat_op, Word.toNat_x, Word.toNat_kk]
  omega

theorem encodeXYN_fields : encodeXYN op (Word.x w) (Word.y w) (Word.n w) = w := by
  apply BitVec.eq_of_toNat_eq
  rw [toNat_encodeXYN, ← family, Word.toNat_op, Word.toNat_x, Word.toNat_y, Word.toNat_n]
  omega

end

/-! ### Decoding an encoded instruction -/

/-- The word of an instruction decodes to it (rules R82, R85). -/
theorem decodeWord_encode (i : Instr) : decodeWord (encode i) = some i := by
  cases i with
  | clear | ret => rfl
  | jump | call | loadIndex | jumpOffset => simp [encode, decodeWord]
  | skipEqImm | skipNeImm | loadImm | addImm | random => simp [encode, decodeWord]
  | skipEqReg | skipNeReg | draw => simp [encode, decodeWord]
  | move | orReg | andReg | xorReg | addReg | subReg | shr | subnReg | shl =>
    simp [encode, decodeWord, decodeFamily8]
  | skipKeyPressed | skipKeyNotPressed => simp [encode, decodeWord, decodeFamilyE]
  | readDelay | waitKey | setDelay | setSound | addIndex | fontChar | bcd | storeRegs | loadRegs =>
    simp [encode, decodeWord, decodeFamilyF]

/-- Settles O3: the two bytes are the word's, and the word decodes to the instruction. -/
theorem decodeOfEncode : Obligations.DecodeOfEncode := by
  intro i rest _
  simp [encodeBytes, decode, Laws.wordOfBytes_hi_lo, decodeWord_encode]

/-! ### Encoding a decoded word -/

theorem encode_of_decodeFamily8 {x y n : BitVec 4} {i : Instr} (h : decodeFamily8 x y n = some i) :
    encode i = encodeXYN 0x8#4 x y n := by
  unfold decodeFamily8 at h
  split at h <;> cases h
  all_goals
    rename_i digit
    exact congrArg (encodeXYN 0x8#4 x y) (BitVec.eq_of_toNat_eq digit.symm)

theorem encode_of_decodeFamilyE {x : RegIdx} {kk : Byte} {i : Instr}
    (h : decodeFamilyE x kk = some i) : encode i = encodeXKK 0xE#4 x kk := by
  unfold decodeFamilyE at h
  split_ifs at h <;> cases h
  all_goals subst kk; rfl

theorem encode_of_decodeFamilyF {x : RegIdx} {kk : Byte} {i : Instr}
    (h : decodeFamilyF x kk = some i) : encode i = encodeXKK 0xF#4 x kk := by
  unfold decodeFamilyF at h
  split_ifs at h <;> cases h
  all_goals subst kk; rfl

/-- A word that decodes is the word of its instruction (rules R85, R91). -/
theorem encode_of_decodeWord {w : Word} {i : Instr} (h : decodeWord w = some i) : encode i = w := by
  unfold decodeWord at h
  split at h
  case h_1 =>
    unfold decodeFamily0 at h
    split_ifs at h with clear ret <;> cases h
    · exact clear.symm
    · exact ret.symm
  case h_2 family | h_3 family | h_11 family | h_12 family => cases h; exact encodeNNN_fields family
  case h_4 family | h_5 family | h_7 family | h_8 family | h_13 family =>
    cases h; exact encodeXKK_fields family
  case h_6 family | h_10 family =>
    split_ifs at h with low
    cases h
    rw [encode, ← low]
    exact encodeXYN_fields family
  case h_9 family => exact (encode_of_decodeFamily8 h).trans (encodeXYN_fields family)
  case h_14 family => cases h; exact encodeXYN_fields family
  case h_15 family => exact (encode_of_decodeFamilyE h).trans (encodeXKK_fields family)
  case h_16 =>
    have below := (Word.op w).isLt
    have family : (Word.op w).toNat = 15 := by grind
    exact (encode_of_decodeFamilyF h).trans (encodeXKK_fields family)

@[simp] theorem regFits_toNat (x : RegIdx) : regFits x.toNat = true := decide_eq_true x.isLt
@[simp] theorem byteFits_toNat (kk : Byte) : byteFits kk.toNat = true := decide_eq_true kk.isLt
@[simp] theorem addrFits_toNat (nnn : Addr) : addrFits nnn.toNat = true := decide_eq_true nnn.isLt
@[simp] theorem rowsFit_toNat (n : BitVec 4) : rowsFit n.toNat = true := decide_eq_true n.isLt

/-- Operands lie in their fields' ranges by their types (rules R81, R83). -/
theorem Instr.wellFormed_eq_true (i : Instr) : i.wellFormed = true := by
  unfold Instr.wellFormed
  split <;> simp

/-- Settles O4: family by family, the word has the fields the instruction was given. -/
theorem encodeOfDecode : Obligations.EncodeOfDecode :=
  fun _ i h => ⟨encode_of_decodeWord h, i.wellFormed_eq_true⟩

/-! ### The illegal words -/

theorem decodeFamily0_eq_none_iff (w : Word) :
    decodeFamily0 w = none ↔ w.toNat ≠ 0x00E0 ∧ w.toNat ≠ 0x00EE := by
  simp [decodeFamily0, BitVec.toNat_eq, ite_eq_iff]

theorem decodeFamily8_eq_none_iff (x y n : BitVec 4) :
    decodeFamily8 x y n = none ↔ n.toNat ∈ [0x8, 0x9, 0xA, 0xB, 0xC, 0xD, 0xF] := by
  unfold decodeFamily8
  split
  case h_10 =>
    have below := n.isLt
    simp only [List.mem_cons, List.not_mem_nil, or_false, true_iff]
    grind
  all_goals
    rename_i digit
    simp [digit]

theorem decodeFamilyE_eq_none_iff (x : RegIdx) (kk : Byte) :
    decodeFamilyE x kk = none ↔ kk.toNat ∉ [0x9E, 0xA1] := by
  simp [decodeFamilyE, BitVec.toNat_eq, ite_eq_iff]

theorem decodeFamilyF_eq_none_iff (x : RegIdx) (kk : Byte) :
    decodeFamilyF x kk = none ↔
      kk.toNat ∉ [0x07, 0x0A, 0x15, 0x18, 0x1E, 0x29, 0x33, 0x55, 0x65] := by
  simp [decodeFamilyF, BitVec.toNat_eq, ite_eq_iff]

/-- Settles O6: the six families that are not legal in full, each by its second dispatch. -/
theorem illegalWordsByFamily : Obligations.IllegalWordsByFamily := by
  intro w
  rw [← Word.toNat_op, ← Word.toNat_n, ← Word.toNat_kk]
  unfold decodeWord
  split
  case h_1 family => rw [family, decodeFamily0_eq_none_iff]; simp
  case h_6 family | h_10 family => rw [family]; simp [BitVec.toNat_eq]
  case h_9 family => rw [family, decodeFamily8_eq_none_iff]; simp
  case h_15 family => rw [family, decodeFamilyE_eq_none_iff]; simp
  case h_16 =>
    have below := (Word.op w).isLt
    have family : (Word.op w).toNat = 15 := by grind
    rw [family, decodeFamilyF_eq_none_iff]; simp
  all_goals
    rename_i family
    simp [family]

/-! ### The opcode map (rules R86, R88) -/

/-! #### The rows -/

/-- No two rows bear the same mnemonic. -/
theorem opRows_mnemonic_nodup : (opRows.map OpRow.mnemonic).Nodup := by decide

theorem opRow_eq_of_mnemonic {r r' : OpRow} (hr : r ∈ opRows) (hr' : r' ∈ opRows)
    (same : r.mnemonic = r'.mnemonic) : r = r' :=
  List.inj_on_of_nodup_map opRows_mnemonic_nodup hr hr' same

/-- A row's pattern, read as a word, decodes to the row's mnemonic. -/
theorem opRows_pattern_decodes :
    ∀ r ∈ opRows, (decodeWord r.pattern).map Instr.mnemonic = some r.mnemonic := by decide

/-- Each row's mask keeps every digit its family dispatches on (rule R85). -/
theorem opRows_mask : ∀ r ∈ opRows,
    Word.op r.mask = 0xF#4 ∧
    ((Word.op r.pattern).toNat = 0 → r.mask = 0xFFFF#16) ∧
    ((Word.op r.pattern).toNat ∈ [5, 8, 9] → Word.n r.mask = 0xF#4) ∧
    ((Word.op r.pattern).toNat ∈ [14, 15] → Word.kk r.mask = 0xFF#8) := by decide

open Laws in
/-- Every instruction's word matches the row of its mnemonic. -/
theorem encode_matches_ownRow : (i : Instr) → OwnRow.Statement i
  | .clear => OwnRow.clear
  | .ret => OwnRow.ret
  | .jump nnn => OwnRow.jump nnn
  | .call nnn => OwnRow.call nnn
  | .skipEqImm x kk => OwnRow.skipEqImm x kk
  | .skipNeImm x kk => OwnRow.skipNeImm x kk
  | .skipEqReg x y => OwnRow.skipEqReg x y
  | .loadImm x kk => OwnRow.loadImm x kk
  | .addImm x kk => OwnRow.addImm x kk
  | .move x y => OwnRow.move x y
  | .orReg x y => OwnRow.orReg x y
  | .andReg x y => OwnRow.andReg x y
  | .xorReg x y => OwnRow.xorReg x y
  | .addReg x y => OwnRow.addReg x y
  | .subReg x y => OwnRow.subReg x y
  | .shr x y => OwnRow.shr x y
  | .subnReg x y => OwnRow.subnReg x y
  | .shl x y => OwnRow.shl x y
  | .skipNeReg x y => OwnRow.skipNeReg x y
  | .loadIndex nnn => OwnRow.loadIndex nnn
  | .jumpOffset nnn => OwnRow.jumpOffset nnn
  | .random x kk => OwnRow.random x kk
  | .draw x y n => OwnRow.draw x y n
  | .skipKeyPressed x => OwnRow.skipKeyPressed x
  | .skipKeyNotPressed x => OwnRow.skipKeyNotPressed x
  | .readDelay x => OwnRow.readDelay x
  | .waitKey x => OwnRow.waitKey x
  | .setDelay x => OwnRow.setDelay x
  | .setSound x => OwnRow.setSound x
  | .addIndex x => OwnRow.addIndex x
  | .fontChar x => OwnRow.fontChar x
  | .bcd x => OwnRow.bcd x
  | .storeRegs x => OwnRow.storeRegs x
  | .loadRegs x => OwnRow.loadRegs x

/-! #### Dispatch looks at the digits the masks keep -/

theorem mnemonic_decodeFamily8_congr (x y x' y' n : BitVec 4) :
    (decodeFamily8 x y n).map Instr.mnemonic = (decodeFamily8 x' y' n).map Instr.mnemonic := by
  unfold decodeFamily8
  split <;> rfl

theorem mnemonic_decodeFamilyE_congr (x x' : RegIdx) (kk : Byte) :
    (decodeFamilyE x kk).map Instr.mnemonic = (decodeFamilyE x' kk).map Instr.mnemonic := by
  unfold decodeFamilyE
  split_ifs <;> rfl

theorem mnemonic_decodeFamilyF_congr (x x' : RegIdx) (kk : Byte) :
    (decodeFamilyF x kk).map Instr.mnemonic = (decodeFamilyF x' kk).map Instr.mnemonic := by
  unfold decodeFamilyF
  split_ifs <;> rfl

/-- Two words with the same family, and the same digits where the family dispatches on them, decode to
the same mnemonic or neither decodes. -/
theorem mnemonic_decodeWord_congr {w p : Word} (op : Word.op w = Word.op p)
    (whole : (Word.op p).toNat = 0 → w = p)
    (low : (Word.op p).toNat ∈ [5, 8, 9] → Word.n w = Word.n p)
    (byte : (Word.op p).toNat ∈ [14, 15] → Word.kk w = Word.kk p) :
    (decodeWord w).map Instr.mnemonic = (decodeWord p).map Instr.mnemonic := by
  unfold decodeWord
  rw [op]
  split
  case h_1 family => rw [whole family]
  case h_6 family | h_10 family =>
    rw [low (by simp [family])]
    split <;> rfl
  case h_9 family =>
    rw [low (by simp [family])]
    exact mnemonic_decodeFamily8_congr ..
  case h_15 family =>
    rw [byte (by simp [family])]
    exact mnemonic_decodeFamilyE_congr ..
  case h_16 =>
    have below := (Word.op p).isLt
    have family : (Word.op p).toNat = 15 := by grind
    rw [byte (by simp [family])]
    exact mnemonic_decodeFamilyF_congr ..
  all_goals rfl

theorem Word.op_and (w m : Word) : Word.op (w &&& m) = Word.op w &&& Word.op m :=
  BitVec.extractLsb'_and
theorem Word.n_and (w m : Word) : Word.n (w &&& m) = Word.n w &&& Word.n m :=
  BitVec.extractLsb'_and
theorem Word.kk_and (w m : Word) : Word.kk (w &&& m) = Word.kk w &&& Word.kk m :=
  BitVec.extractLsb'_and

/-- A word that matches a row decodes to an instruction of the row's mnemonic. -/
theorem mnemonic_of_matches {w : Word} {r : OpRow} (hr : r ∈ opRows) (h : w &&& r.mask = r.pattern) :
    (decodeWord w).map Instr.mnemonic = some r.mnemonic := by
  obtain ⟨op, whole, low, byte⟩ := opRows_mask r hr
  rw [← opRows_pattern_decodes r hr]
  refine mnemonic_decodeWord_congr ?_ (fun family => ?_) (fun family => ?_) (fun family => ?_)
  · rw [← h, Word.op_and, op]; exact (BitVec.and_allOnes).symm
  · rw [← h, whole family]; exact (BitVec.and_allOnes).symm
  · rw [← h, Word.n_and, low family]; exact (BitVec.and_allOnes).symm
  · rw [← h, Word.kk_and, byte family]; exact (BitVec.and_allOnes).symm

/-- A word matches a row exactly when it decodes to an instruction of the row's mnemonic. -/
theorem matches_iff_decodes {w : Word} {r : OpRow} (hr : r ∈ opRows) :
    w &&& r.mask = r.pattern ↔ ∃ i, decodeWord w = some i ∧ i.mnemonic = r.mnemonic := by
  refine ⟨fun h => Option.map_eq_some_iff.mp (mnemonic_of_matches hr h), ?_⟩
  rintro ⟨i, decoded, mnemonic⟩
  obtain ⟨r', hr', mnemonic', matches'⟩ := encode_matches_ownRow i
  obtain rfl := opRow_eq_of_mnemonic hr hr' (mnemonic.symm.trans mnemonic'.symm)
  rwa [encode_of_decodeWord decoded] at matches'

/-- The legal words are those that decode (rule R88). -/
theorem legalWord_iff_decodes (w : Word) : legalWord w = true ↔ ∃ i, decodeWord w = some i := by
  simp only [legalWord, List.any_eq_true, OpRow.matchesWord, beq_iff_eq]
  constructor
  · rintro ⟨r, hr, h⟩
    obtain ⟨i, decoded, -⟩ := (matches_iff_decodes hr).mp h
    exact ⟨i, decoded⟩
  · rintro ⟨i, decoded⟩
    obtain ⟨r, hr, mnemonic, -⟩ := encode_matches_ownRow i
    exact ⟨r, hr, (matches_iff_decodes hr).mpr ⟨i, decoded, mnemonic.symm⟩⟩

/-- Settles O5: a word decodes to its row's mnemonic, and the rows differ in theirs. -/
theorem decodeFollowsOpcodeMap : Obligations.DecodeFollowsOpcodeMap := by
  refine ⟨rfl, fun w r hr => matches_iff_decodes hr, fun w r r' hr hr' h h' => ?_, fun w => ?_⟩
  · have same := (mnemonic_of_matches hr h).symm.trans (mnemonic_of_matches hr' h')
    exact opRow_eq_of_mnemonic hr hr' (Option.some.inj same)
  · rw [← Bool.not_eq_true, legalWord_iff_decodes, ← Option.ne_none_iff_exists', not_not]

/-- Settles O1: each word is decoded by computing. -/
theorem sampleWordsDecode : Obligations.SampleWordsDecode :=
  ⟨rfl, rfl, rfl, rfl, rfl, rfl, rfl, rfl, rfl, rfl⟩

end Sys2Proof

namespace Sys2Proof.Machine

/-- Settles O34: no key event is due, so the step is the loop's next instruction step. -/
theorem stepRunsDecodedInstruction : Obligations.StepRunsDecodedInstruction := by
  intro s left i running loop quiet decoded
  have word : decodeWord s.fetchWord = some i := (decode_pair ..).mp decoded
  have notAwaiting : s.mode ≠ .awaitingKey := by simp [running]
  refine ⟨i.wellFormed_eq_true, ?_⟩
  rw [step_of_unit s quiet, State.passBoundary_not_awaiting s notAwaiting]
  simp only [State.coreUnit, loop, State.loopUnit, running, State.iterate, if_true]
  exact State.instructionStep_of_decode _ i word

end Sys2Proof.Machine

/-!
PROOFS of the family `40_control_flow.md`. The skips follow from what `skipIf` answers on a comparison of two
bytes, the stack faults from the step that runs a decoded word.
-/

namespace Sys2Proof.Machine

/-! ### Jumps -/

/-- Settles O7: both targets are 12-bit words, so their sum wraps. -/
theorem jumpsSetPc : Obligations.JumpsSetPc := by
  intro s nnn
  refine ⟨rfl, addrPlusByte nnn (s.reg 0#4), ?_, rfl⟩
  simp [addrPlusByte]

/-! ### Skips -/

section
variable (s : State) {a b : Byte}

/-- Where two bytes are equal, the skip on equality is taken and the skip on inequality is not (rule R100). -/
theorem State.next_skipIf_of_eq (same : a = b) :
    Host.Outcome.next (φ := Fault) (ρ := Refusal) (s.skipIf (a == b)) = .next s.advance ∧
    Host.Outcome.next (φ := Fault) (ρ := Refusal) (s.skipIf (a != b)) = .next s := by
  simp [State.skipIf, same]

/-- Where two bytes differ, the skip on inequality is taken and the skip on equality is not (rule R100). -/
theorem State.next_skipIf_of_ne (differ : a ≠ b) :
    Host.Outcome.next (φ := Fault) (ρ := Refusal) (s.skipIf (a == b)) = .next s ∧
    Host.Outcome.next (φ := Fault) (ρ := Refusal) (s.skipIf (a != b)) = .next s.advance := by
  simp [State.skipIf, differ]

end

/-- Settles O8: each of the two answers `skipIf` on its comparison of the register with the immediate. -/
theorem immediateSkips : Obligations.ImmediateSkips := fun s _ _ =>
  ⟨s.pc + 2#12, BitVec.toNat_add .., s.next_skipIf_of_eq, s.next_skipIf_of_ne⟩

/-- Settles O9: each of the two answers `skipIf` on its comparison of the registers, and a register equals
itself. -/
theorem registerSkips : Obligations.RegisterSkips := fun s _ _ =>
  ⟨s.pc + 2#12, BitVec.toNat_add .., s.next_skipIf_of_eq, s.next_skipIf_of_ne, s.next_skipIf_of_eq rfl⟩

/-! ### The call stack -/

/-- Settles O10: call writes the entry at `SP`, return reads the one below it. -/
theorem callAndReturn : Obligations.CallAndReturn := by
  intro s nnn
  constructor
  · intro room
    refine ⟨_, _, exec_call_of_room nnn room, rfl, fun k hk => ?_⟩
    simp only [State.push_stack, Vector.getElem_set, eq_comm]
  · intro entry
    obtain ⟨n, sp⟩ := Nat.exists_eq_add_one.mpr entry
    have below : n < 16 := by omega
    exact ⟨⟨n, by omega⟩, ⟨n, below⟩, exec_ret_of_sp below sp, sp.symm, rfl⟩

/-! ### Stack faults -/

/-- A word of family `0x2` is a call (rule R86). -/
theorem decodeWord_of_family2 {w : Word} (family : w.toNat / 4096 = 2) :
    decodeWord w = some (.call (Word.nnn w)) := by
  rw [← Word.toNat_op] at family
  simp only [decodeWord, family]

/-- The step that runs the instruction whose word is at `PC` (rules R84, R205). -/
theorem step_of_decodeWord {s : State} {left : Nat} {i : Instr} (running : s.mode = .running)
    (loop : s.ctl = .loop (left + 1)) (quiet : s.keyEventDue = none)
    (word : decodeWord s.fetchWord = some i) :
    step s = exec i (s.fetched { s.env with turns := s.env.turns.tail } left) := by
  obtain ⟨-, ran⟩ := stepRunsDecodedInstruction s left i running loop quiet ((decode_pair ..).mpr word)
  exact ran

/-- Settles O12: the step runs the instruction with the stack as it was, and the record names the word that
encodes it and the address before the advance. -/
theorem stackFaultsHalt : Obligations.StackFaultsHalt := by
  intro s left running loop quiet
  constructor
  · intro word empty
    have decoded : decodeWord s.fetchWord = some .ret := by rw [word]; rfl
    rw [step_of_decodeWord running loop quiet decoded, exec_ret_of_empty, State.fetched_fetchedFrom]
    · rfl
    · exact empty.not_gt
  · intro family full
    have decoded := decodeWord_of_family2 family
    rw [step_of_decodeWord running loop quiet decoded, exec_call_of_full, State.fetched_fetchedFrom,
      encode_of_decodeWord decoded]
    · rfl
    · exact full.not_lt

end Sys2Proof.Machine

/-!
PROOFS of the family `41_load_alu.md`. What each instruction that writes a flag answers is said once for all
operands, `VF` included, in terms of the registers as the flag's write leaves them; the forms with and without
`VF` as an operand are cases of it.
-/

namespace Sys2Proof.Machine

/-! ### Frames of register writes -/

/-- Writing `V[x]` writes `V[x]` only. -/
theorem writesOnly_setReg (s : State) (x : RegIdx) (b : Byte) :
    WritesOnly s (.next (s.setReg x b)) x b.toNat := by
  refine ⟨_, rfl, fun r => ?_⟩
  change ((s.setReg x b).reg r).toNat = _
  rw [State.reg_setReg, apply_ite BitVec.toNat]
  simp only [eq_comm]

/-- Writing `VF` and then `V[x]` writes the value and the flag, and the value wins where `x` is `VF`. -/
theorem writesWithFlag_setReg (s : State) (x : RegIdx) (b f : Byte) :
    WritesWithFlag s (.next ((s.setReg vF f).setReg x b)) x b.toNat f.toNat := by
  refine ⟨_, rfl, fun r => ?_⟩
  change (((s.setReg vF f).setReg x b).reg r).toNat = _
  rw [State.reg_setReg, State.reg_setReg, apply_ite BitVec.toNat, apply_ite BitVec.toNat]
  simp only [eq_comm]

/-- Where the destination is `VF`, the flag is lost and the frame is that of one write (rule R133). -/
theorem WritesWithFlag.writesOnly {s : State} {o : Host.Outcome State Fault Refusal} {b f : Nat}
    (h : WritesWithFlag s o vF b f) : WritesOnly s o vF b := by
  obtain ⟨v', answer, regs⟩ := h
  refine ⟨v', answer, fun r => (regs r).trans ?_⟩
  by_cases hr : r = vF
  · rw [if_pos hr, if_pos hr]
  · rw [if_neg hr, if_neg hr, if_neg hr]

/-- The flag's write leaves every register other than `VF` (rule R20). -/
theorem State.reg_setFlag_ne {s : State} {r : RegIdx} (hr : r ≠ vF) (f : Byte) :
    (s.setReg vF f).reg r = s.reg r := (s.reg_setReg vF r f).trans (if_neg hr.symm)

/-- The flag's write is what `VF` then reads (rule R20). -/
theorem State.reg_setFlag_vF (s : State) (f : Byte) : (s.setReg vF f).reg vF = f :=
  (s.reg_setReg vF vF f).trans (if_pos rfl)

/-! ### Flags and results as numbers -/

section
variable (a b : Byte)

theorem toNat_flagByte (p : Prop) [Decidable p] : (flagByte (decide p)).toNat = if p then 1 else 0 := by
  by_cases hp : p <;> simp [flagByte, hp]

theorem toNat_carryFlag : (carryFlag a b).toNat = if a.toNat + b.toNat > 255 then 1 else 0 :=
  toNat_flagByte _

theorem toNat_greaterFlag : (greaterFlag a b).toNat = if a.toNat > b.toNat then 1 else 0 :=
  toNat_flagByte _

theorem toNat_lowBitFlag : (lowBitFlag a).toNat = a.toNat % 2 :=
  (BitVec.toNat_and ..).trans (Nat.and_one_is_mod _)

theorem toNat_highBitFlag : (highBitFlag a).toNat = a.toNat / 128 := by
  have shifted : (a >>> 7).toNat = a.toNat / 128 := by simp [Nat.shiftRight_eq_div_pow]
  have bound : a.toNat < 256 := a.isLt
  rw [highBitFlag, BitVec.toNat_and, shifted, BitVec.toNat_ofNat, Nat.and_one_is_mod]
  omega

/-- The 9-bit sum of two bytes, taken modulo 256 (rule R120). -/
theorem toNat_ofNat_byteSum : (BitVec.ofNat 8 (byteSum a b)).toNat = (a.toNat + b.toNat) % 256 :=
  BitVec.toNat_ofNat ..

/-- The difference of two bytes modulo 256, without a negative number (rule R120). -/
theorem toNat_byte_sub : (a - b).toNat = (256 + a.toNat - b.toNat) % 256 := by
  have bound : b.toNat < 256 := b.isLt
  rw [BitVec.toNat_sub]
  omega

end

/-! ### The instructions that write a flag, for all operands -/

section
variable (s : State) (x y : RegIdx)

/-- add takes the sum before the flag is written, so no operand is read after it (rule R127). -/
theorem exec_addReg_writes :
    WritesWithFlag s (exec (.addReg x y) s) x (((s.reg x).toNat + (s.reg y).toNat) % 256)
      (if (s.reg x).toNat + (s.reg y).toNat > 255 then 1 else 0) := by
  rw [← toNat_carryFlag, ← toNat_ofNat_byteSum]
  exact writesWithFlag_setReg ..

/-- sub reads its operands as the flag's write leaves them (rule R128). -/
theorem exec_subReg_writes {f : Byte} (flag : f = greaterFlag (s.reg x) (s.reg y)) :
    WritesWithFlag s (exec (.subReg x y) s) x
      ((256 + ((s.setReg vF f).reg x).toNat - ((s.setReg vF f).reg y).toNat) % 256) f.toNat := by
  rw [← toNat_byte_sub, flag]
  exact writesWithFlag_setReg ..

/-- subn reads its operands as the flag's write leaves them (rule R130). -/
theorem exec_subnReg_writes {f : Byte} (flag : f = greaterFlag (s.reg y) (s.reg x)) :
    WritesWithFlag s (exec (.subnReg x y) s) x
      ((256 + ((s.setReg vF f).reg y).toNat - ((s.setReg vF f).reg x).toNat) % 256) f.toNat := by
  rw [← toNat_byte_sub, flag]
  exact writesWithFlag_setReg ..

/-- shr shifts `V[x]` as the flag's write leaves it (rule R129). -/
theorem exec_shr_writes {f : Byte} (flag : f = lowBitFlag (s.reg x)) :
    WritesWithFlag s (exec (.shr x y) s) x (((s.setReg vF f).reg x).toNat / 2) f.toNat := by
  have half (b : Byte) : b.toNat / 2 = (b >>> 1).toNat := by simp [Nat.shiftRight_eq_div_pow]
  rw [half, flag]
  exact writesWithFlag_setReg ..

/-- shl shifts `V[x]` as the flag's write leaves it (rule R131). -/
theorem exec_shl_writes {f : Byte} (flag : f = highBitFlag (s.reg x)) :
    WritesWithFlag s (exec (.shl x y) s) x (2 * ((s.setReg vF f).reg x).toNat % 256) f.toNat := by
  have twice (b : Byte) : 2 * b.toNat % 256 = (b <<< 1).toNat := by
    simp [Nat.shiftLeft_eq, Nat.mul_comm]
  rw [twice, flag]
  exact writesWithFlag_setReg ..

end

/-! ### The statements -/

/-- Settles O13: each of the six is one register write, of a value that is the stated number. -/
theorem loadAndLogic : Obligations.LoadAndLogic := by
  intro s x y kk
  refine ⟨writesOnly_setReg .., ?_, writesOnly_setReg .., ?_, ?_, ?_⟩
  · rw [← toNat_ofNat_byteSum]
    exact writesOnly_setReg ..
  · rw [← BitVec.toNat_or]
    exact writesOnly_setReg ..
  · rw [← BitVec.toNat_and]
    exact writesOnly_setReg ..
  · rw [← BitVec.toNat_xor]
    exact writesOnly_setReg ..

/-- Settles O14: away from `VF`, the flag's write leaves the operands as they were. -/
theorem arithmeticLaws : Obligations.ArithmeticLaws := by
  intro s x y kk _ _ rfl rfl hx
  obtain ⟨-, addImm, -, or, and, xor⟩ := loadAndLogic s x y kk
  refine ⟨fun hy => ⟨exec_addReg_writes s x y, ?_, ?_⟩, ?_, ?_, addImm, or, and, xor⟩
  · have sub := exec_subReg_writes s x y rfl
    rwa [State.reg_setFlag_ne hx, State.reg_setFlag_ne hy, toNat_greaterFlag] at sub
  · have subn := exec_subnReg_writes s x y rfl
    rwa [State.reg_setFlag_ne hx, State.reg_setFlag_ne hy, toNat_greaterFlag] at subn
  · have shr := exec_shr_writes s x y rfl
    rwa [State.reg_setFlag_ne hx, toNat_lowBitFlag] at shr
  · have shl := exec_shl_writes s x y rfl
    rwa [State.reg_setFlag_ne hx, toNat_highBitFlag] at shl

/-- Settles O15: an operand that is `VF` is read as the flag, every other as it was. -/
theorem aliasedFlagForms : Obligations.AliasedFlagForms := by
  intro s x y _ _ _ rfl rfl rfl
  refine ⟨fun hx => ⟨exec_addReg_writes s x vF, ?_, ?_⟩, fun hy => ⟨?_, ?_⟩,
    (exec_addReg_writes s vF y).writesOnly, ?_, ?_, ?_, ?_⟩
  · have sub := exec_subReg_writes s x vF rfl
    rwa [State.reg_setFlag_ne hx, State.reg_setFlag_vF, toNat_greaterFlag] at sub
  · have subn := exec_subnReg_writes s x vF rfl
    rwa [State.reg_setFlag_ne hx, State.reg_setFlag_vF, toNat_greaterFlag] at subn
  · have sub := (exec_subReg_writes s vF y rfl).writesOnly
    rwa [State.reg_setFlag_ne hy, State.reg_setFlag_vF, toNat_greaterFlag] at sub
  · have subn := (exec_subnReg_writes s vF y rfl).writesOnly
    rwa [State.reg_setFlag_ne hy, State.reg_setFlag_vF, toNat_greaterFlag] at subn
  · have sub := (exec_subReg_writes s vF vF rfl).writesOnly
    rwa [Nat.add_sub_cancel] at sub
  · have subn := (exec_subnReg_writes s vF vF rfl).writesOnly
    rwa [Nat.add_sub_cancel] at subn
  · have shr := (exec_shr_writes s vF y rfl).writesOnly
    rwa [State.reg_setFlag_vF, toNat_lowBitFlag, Nat.div_eq_of_lt (Nat.mod_lt _ Nat.two_pos)] at shr
  · have shl := (exec_shl_writes s vF y rfl).writesOnly
    have bound : 2 * ((s.reg vF).toNat / 128) < 256 := by have := (s.reg vF).isLt; omega
    rwa [State.reg_setFlag_vF, toNat_highBitFlag, Nat.mod_eq_of_lt bound] at shl

/-- Settles O16: the answer is the RNG's next one, and what is written is its mask. -/
theorem randomMasksOneAnswer : Obligations.RandomMasksOneAnswer := by
  intro s x kk
  have written (q : RegIdx) : (s.setReg x (s.env.nextRand &&& kk)).reg q =
      if q = x then s.env.nextRand &&& kk else s.reg q := by
    rw [State.reg_setReg]
    simp only [eq_comm]
  refine ⟨s.env.nextRand, s.env.randAnswers.tail, _, _, rfl, written, ?_, fun r rs scripted => ?_⟩
  · have masked := congrArg (· &&& ~~~kk) ((written x).trans (if_pos rfl))
    exact masked.trans (by simp [BitVec.and_assoc])
  · exact ⟨s.env.nextRand_cons r rs scripted, by rw [scripted]; rfl⟩

end Sys2Proof.Machine

/-!
PROOFS of the family `42_index_memory.md`. What loading a range leaves in the registers stands beside what storing
one leaves in memory (family `20_memory.md`); the statements read these two off at `V[x]`'s number.
-/

namespace Sys2Proof.Machine

/-! ### The index register -/

/-- Settles O17: the sum is one of 12-bit words, so it wraps. -/
theorem indexWrites : Obligations.IndexWrites := by
  intro s nnn x
  refine ⟨rfl, addrPlusByte s.i (s.reg x), ?_, rfl⟩
  simp [addrPlusByte]

/-- `FONT_BASE` plus five times the byte, modulo the size of memory (rule R142). -/
theorem toNat_fontAddr (f : FontSet) (b : Byte) :
    (fontAddr f b).toNat = (f.base.toNat + b.toNat * 5) % 4096 := by
  simp [fontAddr]

/-- In a font of the reserved region, the bytes of a digit's glyph lie at the digit's font address without
wrapping (rules R72, R142). -/
theorem toNat_effAddr_fontAddr {f : FontSet} (reserved : f.reserved) {b : Byte} (digit : b.toNat < 16)
    {k : Nat} (hk : k < 5) : (effAddr (fontAddr f b) k).toNat = f.base.toNat + (b.toNat * 5 + k) := by
  obtain ⟨wraps, -⟩ := addressesWrap
  rw [wraps, toNat_fontAddr]
  omega

/-- After `initialize()` memory lists no address, so each reads as its reset contents (rule R230). -/
theorem State.readByte_initialize (s : State) (a : Addr) :
    s.initialize.readByte a = Memory.unlisted s.cfg.fontSet a.toNat := rfl

/-- Settles O18: the digit's bytes lie in the font, which the reset contents are made of. -/
theorem fontCharPointsAtSprite : Obligations.FontCharPointsAtSprite := by
  intro s x
  refine ⟨fontAddr s.cfg.fontSet (s.reg x), toNat_fontAddr .., rfl, fun reserved k hk digit => ?_⟩
  have glyph : (s.reg x).toNat * 5 + k < 80 := by omega
  rw [State.readByte_initialize, toNat_effAddr_fontAddr reserved digit hk, Memory.unlisted_font _ _ glyph]

/-! ### The decimal digits -/

section
variable (b : Byte)

theorem toNat_hundreds : (hundreds b).toNat = b.toNat / 100 := by
  have bound : b.toNat < 256 := b.isLt
  rw [hundreds, BitVec.toNat_ofNat]
  omega

theorem toNat_tens : (tens b).toNat = b.toNat / 10 % 10 := by
  rw [tens, BitVec.toNat_ofNat]
  omega

theorem toNat_ones : (ones b).toNat = b.toNat % 10 := by
  rw [ones, BitVec.toNat_ofNat]
  omega

end

/-- Different offsets below the size of memory give different effective addresses (rule R62). -/
theorem effAddr_inj (i : Addr) {j k : Nat} (hj : j < 4096) (hk : k < 4096) :
    effAddr i j = effAddr i k ↔ j = k := by
  rw [eq_effAddr_iff hk, (eq_effAddr_iff hj).mp rfl]

/-- Settles O20: the three addresses differ, so no later store covers an earlier digit. -/
theorem bcdStoresDigits : Obligations.BcdStoresDigits := by
  intro s x
  refine ⟨_, rfl, ?_, ?_, ?_, fun a h0 h1 h2 => ?_⟩
  · simp [effAddr_inj, toNat_hundreds]
  · simp [effAddr_inj, toNat_tens]
  · simp [toNat_ones]
  · simp [h0, h1, h2, State.readByte]

/-! ### Ranges of registers -/

/-- What loading a range leaves in the registers: the byte at its offset from `I` in each register of the
range, the old value in every other (rule R145). -/
theorem State.reg_loadRange (s : State) (r : RegIdx) : ∀ n : Nat, n ≤ 16 →
    (s.loadRange n).reg r = if r.toNat < n then s.readByte (effAddr s.i r.toNat) else s.reg r
  | 0, _ => rfl
  | n + 1, hn => by
    have number : BitVec.ofNat 4 n = r ↔ r.toNat = n := by bv_omega
    rw [State.loadRange, State.reg_setReg, State.reg_loadRange s r n (by omega)]
    by_cases here : r.toNat = n
    · simp [number, here]
    · have range : r.toNat < n + 1 ↔ r.toNat < n := by omega
      simp only [number, here, range, if_false]

/-- Settles O21: an address outside the range has an offset from `I` beyond `x`. -/
theorem storeRegsStoresRange : Obligations.StoreRegsStoresRange := by
  intro s x
  have size : x.toNat + 1 ≤ 4096 := by omega
  have read (a : Addr) : (s.storeRange (x.toNat + 1)).mem.read s.cfg.fontSet a =
      (s.storeRange (x.toNat + 1)).readByte a := by
    rw [State.readByte, State.storeRange_cfg]
  refine ⟨_, congrArg _ (s.storeRange_frame _), fun r hr => ?_, fun a outside => ?_⟩
  · rw [read, State.readByte_storeRange_effAddr s (Nat.lt_succ_of_le hr) size]
  · have beyond : ¬ (a - s.i).toNat < x.toNat + 1 := fun h =>
      outside _ (Nat.le_of_lt_succ h) ((eq_effAddr_iff (by omega)).mpr rfl)
    rw [read, State.readByte_storeRange s a _ size, if_neg beyond]

/-- Settles O22: the range ends at `V[x]`. -/
theorem loadRegsLoadsRange : Obligations.LoadRegsLoadsRange := by
  intro s x
  refine ⟨_, congrArg _ (s.loadRange_frame _), fun r => ?_⟩
  rw [← State.reg_eq, State.reg_loadRange s r _ (by omega)]
  simp only [Nat.lt_succ_iff]

/-- Settles O23: each register of the range is loaded from where it was stored. -/
theorem loadUndoesStore : Obligations.LoadUndoesStore := by
  intro s u x
  refine ⟨s.storeRange (x.toNat + 1), rfl, fun mem cfg i =>
    ⟨u.loadRange (x.toNat + 1), rfl, fun r low => ?_, fun r high => ?_, u.loadRange_mem _, u.loadRange_i _⟩⟩
  · have stored : r.toNat < x.toNat + 1 := Nat.lt_succ_of_le low
    rw [State.reg_loadRange u r _ (by omega), if_pos stored, State.readByte, mem, cfg, i,
      State.storeRange_i]
    exact s.readByte_storeRange_effAddr stored (by omega)
  · exact u.reg_loadRange_of_le r _ high

end Sys2Proof.Machine

/-!
PROOFS of the family `43_display.md`. The requests of a draw are the sprite's pixels; what a sequence of requests
leaves in the bitmap and what it answers are said once, for any Display. A sprite's pixels come in reading
order, so on a clear display the first draw only appends to the bitmap and the second only takes away its head.
-/

namespace Sys2Proof.Machine

/-! ### Sequences of `DispSetPixel` requests -/

/-- The Display after a sequence of requests (rules R161, R216). -/
def Display.toggles (d : Display) (ps : List (Coord × Coord)) : Display :=
  ps.foldl (fun d p => d.toggle p.1.toNat p.2.toNat) d

/-- The answers to a sequence of requests, each from the bitmap the earlier ones left (rules R161, R216). -/
def Display.answers (d : Display) : List (Coord × Coord) → List Bool
  | [] => []
  | p :: ps => d.collides p.1.toNat p.2.toNat :: (d.toggle p.1.toNat p.2.toNat).answers ps

section
variable (d : Display) (p : Coord × Coord) (ps : List (Coord × Coord))

@[simp] theorem Display.toggles_nil : d.toggles [] = d := rfl
@[simp] theorem Display.toggles_cons :
    d.toggles (p :: ps) = (d.toggle p.1.toNat p.2.toNat).toggles ps := rfl
@[simp] theorem Display.answers_nil : d.answers [] = [] := rfl
@[simp] theorem Display.answers_cons :
    d.answers (p :: ps) = d.collides p.1.toNat p.2.toNat :: (d.toggle p.1.toNat p.2.toNat).answers ps := rfl

end

theorem Display.length_answers (ps : List (Coord × Coord)) :
    ∀ d : Display, (d.answers ps).length = ps.length := by
  induction ps with
  | nil => intro d; rfl
  | cons p ps ih => intro d; simp [ih]

/-- The `k`-th answer is from the bitmap the first `k` requests left. -/
theorem Display.answers_getElem? (ps : List (Coord × Coord)) : ∀ (d : Display) (k : Nat) (p : Coord × Coord),
    ps[k]? = some p → (d.answers ps)[k]? = some ((d.toggles (ps.take k)).collides p.1.toNat p.2.toNat) := by
  induction ps with
  | nil => intro d k p h; simp at h
  | cons q ps ih =>
    intro d k p h
    cases k with
    | zero => cases h; rfl
    | succ k => exact ih _ k p h

/-- What a sequence of requests does on the port: the bitmap toggled, each request logged with its answer. -/
theorem Env.setPixels_eq (ps : List (Coord × Coord)) : ∀ e : Env, e.setPixels ps = { e with
    display := e.display.toggles ps
    ports := e.ports ++
      List.zipWith (fun p c => .dispSetPixel p.1 p.2 c) ps (e.display.answers ps) } := by
  induction ps with
  | nil => intro e; simp [Env.setPixels]
  | cons p ps ih => intro e; simp [Env.setPixels, ih, Env.setPixel]

/-- A sequence collides exactly when some answer is true (rule R161). -/
theorem Env.anyCollision_eq (ps : List (Coord × Coord)) :
    ∀ e : Env, e.anyCollision ps = decide (true ∈ e.display.answers ps) := by
  induction ps with
  | nil => intro e; rfl
  | cons p ps ih => intro e; simp [Env.anyCollision, ih, Env.setPixel, @eq_comm _ true]

/-! ### The pixels of a sprite -/

/-- The pixels of the sprite a draw shows (rules R161, R162). -/
def State.sprite (s : State) (x y : RegIdx) (n : BitVec 4) : List (Coord × Coord) :=
  spritePixels s.mem s.cfg.fontSet s.i (s.reg x) (s.reg y) n.toNat

/-- draw toggles the sprite's pixels and writes whether some answer is true to `VF` (rule R161). -/
theorem exec_draw (s : State) (x y : RegIdx) (n : BitVec 4) :
    exec (.draw x y n) s = .next ((s.setEnv { s.env with
        display := s.env.display.toggles (s.sprite x y n)
        ports := s.env.ports ++ List.zipWith (fun p c => .dispSetPixel p.1 p.2 c) (s.sprite x y n)
          (s.env.display.answers (s.sprite x y n)) }).setReg vF
      (flagByte (decide (true ∈ s.env.display.answers (s.sprite x y n))))) := by
  rw [← Env.setPixels_eq, ← Env.anyCollision_eq]
  rfl

/-- A coordinate's plain sum fits its 9 bits (rule R41, D13). -/
theorem toNat_coord (b : Byte) {k : Nat} (hk : k ≤ 256) : (coord b k).toNat = b.toNat + k := by
  have bound : b.toNat < 256 := b.isLt
  simp only [coord, BitVec.toNat_add, BitVec.toNat_setWidth, BitVec.toNat_ofNat]
  omega

/-- The coordinates of a row's pixels, as numbers (rule R162). -/
theorem map_toNat_rowPixels (b vx vy : Byte) {row : Nat} (hrow : row ≤ 256) :
    (rowPixels b vx vy row).map (fun p => (p.1.toNat, p.2.toNat)) =
      ((List.range 8).filter (fun col => b.getLsbD (7 - col))).map
        (fun col => (vx.toNat + col, vy.toNat + row)) := by
  rw [rowPixels, List.map_map]
  refine List.map_congr_left fun col hcol => ?_
  have col8 : col < 8 := List.mem_range.mp (List.mem_of_mem_filter hcol)
  simp [toNat_coord vx (show col ≤ 256 by omega), toNat_coord vy hrow]

/-- The coordinates of a sprite's pixels, as numbers, row by row (rules R161, R162). -/
theorem State.map_toNat_sprite (s : State) (x y : RegIdx) (n : BitVec 4) :
    (s.sprite x y n).map (fun p => (p.1.toNat, p.2.toNat)) =
      (List.range n.toNat).flatMap (fun row =>
        ((List.range 8).filter (fun col => (s.readByte (effAddr s.i row)).getLsbD (7 - col))).map
          (fun col => ((s.reg x).toNat + col, (s.reg y).toNat + row))) := by
  rw [sprite, spritePixels, List.map_flatMap, List.flatMap_def, List.flatMap_def]
  refine congrArg _ (List.map_congr_left fun row hrow => map_toNat_rowPixels _ _ _ ?_)
  have below : row < n.toNat := List.mem_range.mp hrow
  omega

/-- A sprite's pixel lies in one of its rows and 8 columns, counted from `V[x]` and `V[y]` (rules R161, R162). -/
theorem State.mem_sprite {s : State} {x y : RegIdx} {n : BitVec 4} {p : Coord × Coord}
    (hp : p ∈ s.sprite x y n) : ∃ row col, row < n.toNat ∧ col < 8 ∧
      p.1.toNat = (s.reg x).toNat + col ∧ p.2.toNat = (s.reg y).toNat + row := by
  have coords := List.mem_map_of_mem (f := fun p => (p.1.toNat, p.2.toNat)) hp
  rw [s.map_toNat_sprite] at coords
  simp only [List.mem_flatMap, List.mem_map, List.mem_filter, List.mem_range, Prod.mk.injEq] at coords
  obtain ⟨row, hrow, col, ⟨hcol, -⟩, h1, h2⟩ := coords
  exact ⟨row, col, hrow, hcol, h1.symm, h2.symm⟩

/-- A sprite with a byte that is not 0 has a pixel (rule R162). -/
theorem State.sprite_ne_nil {s : State} (x y : RegIdx) {n : BitVec 4} {row : Nat} (hrow : row < n.toNat)
    (lit : s.readByte (effAddr s.i row) ≠ 0#8) : s.sprite x y n ≠ [] := by
  obtain ⟨bit, hbit, one⟩ : ∃ bit < 8, (s.readByte (effAddr s.i row)).getLsbD bit = true := by
    by_contra dark
    push Not at dark
    exact lit (BitVec.eq_of_getLsbD_eq fun bit hbit => by simpa using dark bit hbit)
  have column : 7 - (7 - bit) = bit := by omega
  refine List.ne_nil_of_mem (List.mem_flatMap.mpr ⟨row, List.mem_range.mpr hrow, List.mem_map_of_mem
    (List.mem_filter.mpr ⟨List.mem_range.mpr (show 7 - bit < 8 by omega), ?_⟩)⟩)
  rw [column]
  exact one

/-- Coordinates in reading order: an earlier row, or the same row and a column further left. -/
def ReadingOrder (p q : Nat × Nat) : Prop := p.2 < q.2 ∨ p.2 = q.2 ∧ p.1 < q.1

/-- A sprite's pixels come in reading order (rules R161, R162). -/
theorem State.pairwise_sprite (s : State) (x y : RegIdx) (n : BitVec 4) :
    ((s.sprite x y n).map (fun p => (p.1.toNat, p.2.toNat))).Pairwise ReadingOrder := by
  rw [s.map_toNat_sprite, List.pairwise_flatMap]
  constructor
  · intro row _
    refine List.pairwise_map.mpr ((List.pairwise_lt_range.filter _).imp fun hlt => ?_)
    exact .inr ⟨rfl, Nat.add_lt_add_left hlt _⟩
  · refine List.pairwise_lt_range.imp fun hlt p hp q hq => ?_
    obtain ⟨_, -, rfl⟩ := List.mem_map.mp hp
    obtain ⟨_, -, rfl⟩ := List.mem_map.mp hq
    exact .inl (Nat.add_lt_add_left hlt _)

/-! ### Pixels in reading order inside the bitmap -/

/-- A coordinate pair inside the bitmap (rule R216). -/
def Display.Inside (d : Display) (p : Coord × Coord) : Prop := p.1.toNat < d.width ∧ p.2.toNat < d.height

/-- The number of a pixel inside the bitmap (rule R215). -/
def Display.number (d : Display) (p : Coord × Coord) : Nat := p.2.toNat * d.width + p.1.toNat

/-- Inside the bitmap a coordinate pair means its own pixel (rule R216). -/
theorem Display.pixelAt_of_lt {d : Display} {x y : Nat} (hx : x < d.width) (hy : y < d.height) :
    d.pixelAt x y = some (y * d.width + x) := by
  have bound : y * d.width + x < d.width * d.height := calc
    y * d.width + x < (y + 1) * d.width := by rw [Nat.succ_mul]; omega
    _ ≤ d.height * d.width := Nat.mul_le_mul_right _ hy
    _ = d.width * d.height := Nat.mul_comm ..
  rw [pixelAt, if_pos ⟨hx, hy⟩]
  exact Option.filter_some_pos (decide_eq_true bound)

/-- Inside the bitmap, reading order is the order of the pixel numbers (rule R215). -/
theorem Display.number_lt {d : Display} {p q : Coord × Coord} (hp : d.Inside p)
    (order : ReadingOrder (p.1.toNat, p.2.toNat) (q.1.toNat, q.2.toNat)) : d.number p < d.number q := by
  unfold number
  obtain above | ⟨(same : p.2.toNat = q.2.toNat), left⟩ := order
  · calc p.2.toNat * d.width + p.1.toNat < (p.2.toNat + 1) * d.width := by
          rw [Nat.succ_mul]; exact Nat.add_lt_add_left hp.1 _
      _ ≤ q.2.toNat * d.width := Nat.mul_le_mul_right _ above
      _ ≤ q.2.toNat * d.width + q.1.toNat := Nat.le_add_right ..
  · rw [same]
    exact Nat.add_lt_add_left left _

section
variable {d : Display} {p : Coord × Coord} (h : d.Inside p)
include h

theorem Display.pixels_toggle_of_inside :
    (d.toggle p.1.toNat p.2.toNat).pixels = togglePixel (d.number p) d.pixels := by
  rw [toggle, pixelAt_of_lt h.1 h.2]
  rfl

theorem Display.collides_of_inside :
    d.collides p.1.toNat p.2.toNat = decide (d.number p ∈ d.pixels) := by
  rw [collides, pixelAt_of_lt h.1 h.2]
  rfl

end

@[simp] theorem Display.inside_toggle (d : Display) (x y : Nat) (p : Coord × Coord) :
    (d.toggle x y).Inside p ↔ d.Inside p := by simp [Inside]

@[simp] theorem Display.number_toggle (d : Display) (x y : Nat) : (d.toggle x y).number = d.number := by
  funext p; simp [number]

@[simp] theorem Display.inside_toggles (ps : List (Coord × Coord)) (p : Coord × Coord) :
    ∀ d : Display, (d.toggles ps).Inside p ↔ d.Inside p := by
  induction ps with
  | nil => exact fun _ => .rfl
  | cons q ps ih => intro d; simp [ih]

@[simp] theorem Display.number_toggles (ps : List (Coord × Coord)) :
    ∀ d : Display, (d.toggles ps).number = d.number := by
  induction ps with
  | nil => exact fun _ => rfl
  | cons q ps ih => intro d; simp [ih]

/-- Toggling a pixel beyond every pixel that is on appends it. -/
theorem togglePixel_of_above {p : Nat} {l : List Nat} (above : ∀ q ∈ l, q < p) :
    togglePixel p l = l ++ [p] := by
  induction l with
  | nil => rfl
  | cons q l ih =>
    obtain ⟨hq, hl⟩ := List.forall_mem_cons.mp above
    rw [togglePixel, if_neg (by omega), if_neg (by omega), ih hl, List.cons_append]

/-- Toggling the first pixel that is on takes it away. -/
theorem togglePixel_head (p : Nat) (l : List Nat) : togglePixel p (p :: l) = l := by
  simp [togglePixel]

/-- Requests in rising order, all beyond the pixels that are on: each appends its pixel and answers
false. -/
theorem Display.toggles_of_rising (ps : List (Coord × Coord)) : ∀ d : Display, (∀ p ∈ ps, d.Inside p) →
    (d.pixels ++ ps.map d.number).Pairwise (· < ·) →
    (d.toggles ps).pixels = d.pixels ++ ps.map d.number ∧ true ∉ d.answers ps := by
  induction ps with
  | nil => intro d _ _; simp
  | cons p ps ih =>
    intro d inside rising
    obtain ⟨hp, hps⟩ := List.forall_mem_cons.mp inside
    have above : ∀ q ∈ d.pixels, q < d.number p := fun q hq =>
      (List.pairwise_append.mp rising).2.2 q hq _ (List.mem_cons_self ..)
    have appended : (d.toggle p.1.toNat p.2.toNat).pixels = d.pixels ++ [d.number p] :=
      (pixels_toggle_of_inside hp).trans (togglePixel_of_above above)
    have off : d.number p ∉ d.pixels := fun on => (above _ on).false
    obtain ⟨pixels, answers⟩ := ih (d.toggle p.1.toNat p.2.toNat) (by simpa using hps)
      (by simpa [appended] using rising)
    exact ⟨by simp [pixels, appended], by simp [answers, collides_of_inside hp, off]⟩

/-- Requests for exactly the pixels that are on, in their order: each takes its pixel away. -/
theorem Display.toggles_of_on (ps : List (Coord × Coord)) : ∀ d : Display, (∀ p ∈ ps, d.Inside p) →
    d.pixels = ps.map d.number → (d.toggles ps).pixels = [] := by
  induction ps with
  | nil => exact fun d _ on => on
  | cons p ps ih =>
    intro d inside on
    obtain ⟨hp, hps⟩ := List.forall_mem_cons.mp inside
    refine ih _ (by simpa using hps) ?_
    rw [pixels_toggle_of_inside hp, on, List.map_cons, togglePixel_head, number_toggle]

/-- The first of the requests for the pixels that are on answers true. -/
theorem Display.answers_of_on {d : Display} {ps : List (Coord × Coord)} (nonempty : ps ≠ [])
    (inside : ∀ p ∈ ps, d.Inside p) (on : d.pixels = ps.map d.number) : true ∈ d.answers ps := by
  obtain ⟨p, ps, rfl⟩ := List.exists_cons_of_ne_nil nonempty
  rw [answers_cons, collides_of_inside (inside p (List.mem_cons_self ..)), on]
  simp

/-! ### Sprites inside the bitmap -/

/-- A sprite placed wholly inside the bitmap has its pixels inside. -/
theorem State.inside_sprite {s : State} {x y : RegIdx} {n : BitVec 4} {d : Display}
    (wide : (s.reg x).toNat + 7 < d.width) (tall : (s.reg y).toNat + n.toNat ≤ d.height) :
    ∀ p ∈ s.sprite x y n, d.Inside p := fun p hp => by
  obtain ⟨row, col, hrow, hcol, px, py⟩ := State.mem_sprite hp
  exact ⟨by omega, by omega⟩

/-- The pixel numbers of a sprite inside the bitmap are strictly rising. -/
theorem State.rising_sprite {s : State} {x y : RegIdx} {n : BitVec 4} {d : Display}
    (inside : ∀ p ∈ s.sprite x y n, d.Inside p) :
    ((s.sprite x y n).map d.number).Pairwise (· < ·) := by
  have order := List.pairwise_map.mp (s.pairwise_sprite x y n)
  exact List.pairwise_map.mpr (order.imp_of_mem fun hp _ => Display.number_lt (inside _ hp))

/-- A change of the collaborators and of `VF` leaves the sprite drawn at other registers. -/
theorem State.sprite_setReg_vF (s : State) (e : Env) (f : Byte) {x y : RegIdx} (hx : x ≠ vF) (hy : y ≠ vF)
    (n : BitVec 4) : ((s.setEnv e).setReg vF f).sprite x y n = s.sprite x y n := by
  rw [sprite, reg_setFlag_ne hx, reg_setFlag_ne hy]
  rfl

/-! ### The statements -/

/-- A Display with no pixel on answers false to every request (rule R216). -/
theorem Display.collides_of_clear {d : Display} (clear : d.pixels = []) (x y : Nat) :
    d.collides x y = false := by
  unfold collides
  split
  · simp [clear]
  · rfl

/-- Settles O26: the bitmap left lists no pixel. -/
theorem clearTurnsPixelsOff : Obligations.ClearTurnsPixelsOff := fun s =>
  ⟨s.env.clearDisplay.display, rfl, Display.collides_of_clear s.env.clearDisplay_pixels, rfl, rfl, rfl⟩

/-- Settles O27: the pixels are the sprite's, and its bits are those of the bytes read as numbers. -/
theorem drawRequestsPixels : Obligations.DrawRequestsPixels := by
  intro s x y n
  refine ⟨s.sprite x y n, s.env.display.answers (s.sprite x y n), _, _, exec_draw s x y n, rfl,
    Display.length_answers .., Display.answers_getElem? _ _, ?_, fun r => ?_⟩
  · rw [s.map_toNat_sprite]
    simp [BitVec.getLsbD, Nat.testBit_eq_decide_div_mod_eq, beq_eq_decide]
  · refine (State.reg_setReg (s.setEnv _) vF r _).trans ?_
    simp only [flagByte, decide_eq_true_eq, @eq_comm _ vF]
    rfl

/-- Settles O29: the first draw turns on exactly the sprite's pixels, which are in rising order, so that the
second takes each away. -/
theorem secondDrawCollides : Obligations.SecondDrawCollides := by
  intro s x y n hx hy clear wide tall ⟨row, hrow, lit⟩
  have shows : s.sprite x y n ≠ [] := State.sprite_ne_nil x y hrow lit
  have inside := State.inside_sprite wide tall
  obtain ⟨on, silent⟩ := Display.toggles_of_rising _ s.env.display inside (by
    simpa [clear] using State.rising_sprite inside)
  rw [clear, List.nil_append, ← Display.number_toggles (s.sprite x y n)] at on
  have inside' p hp := (Display.inside_toggles (s.sprite x y n) p s.env.display).mpr (inside p hp)
  refine ⟨_, _, exec_draw s x y n, exec_draw _ x y n, ?_, ?_, ?_, ?_⟩
  · exact (State.reg_setFlag_vF ..).trans (congrArg flagByte (decide_eq_false silent))
  · exact fun off => shows (List.map_eq_nil_iff.mp (on.symm.trans off))
  · rw [State.reg_setFlag_vF, State.sprite_setReg_vF _ _ _ hx hy]
    exact congrArg flagByte (decide_eq_true (Display.answers_of_on shows inside' on))
  · rw [State.sprite_setReg_vF _ _ _ hx hy]
    exact Display.toggles_of_on _ _ inside' on

end Sys2Proof.Machine

/-!
PROOFS of the family `44_keypad_timers.md`. The two key skips run on one query's answer: the same skip, on the
answer and on its negation.
-/

namespace Sys2Proof.Machine

/-! ### Key skips -/

/-- A skip on a condition, whole state (rule R100). -/
theorem State.skipIf_frame (s : State) (c : Bool) :
    s.skipIf c = { s with pc := if c then s.pc + 2#12 else s.pc } := by
  rw [State.skipIf_eq, State.skipIf_pc]
  rfl

/-- A skip on the negation of a condition moves `PC` exactly where a skip on the condition leaves it
(rule R100). -/
theorem State.skipIf_not_frame (s : State) (c : Bool) :
    s.skipIf (!c) = { s with pc := if c then s.pc else s.pc + 2#12 } := by
  cases c <;> rfl

/-- Settles O30: both skip on the answer of the one query with `V[x]`, the second on its negation. -/
theorem keySkips : Obligations.KeySkips := by
  intro s x
  refine ⟨s.env.nextKey (s.reg x), s.env.keyAnswers.tail, _, s.pc + 2#12, s.env.tookKey (s.reg x),
    rfl, BitVec.toNat_add .., ?pressed, ?notPressed, fun p' ps scripted => ?scripted⟩
  case pressed => exact congrArg _ (State.skipIf_frame ..)
  case notPressed => exact congrArg _ (State.skipIf_not_frame ..)
  case scripted => exact ⟨s.env.nextKey_cons _ p' ps scripted, by rw [scripted]; rfl⟩

/-! ### Timers -/

/-- The sound is on exactly while `ST` is not 0 (rule R221). -/
theorem State.soundActive_iff (s : State) : s.soundActive = true ↔ s.st.toNat ≠ 0 :=
  bne_iff_ne.trans BitVec.toNat_ne_iff_ne.symm

/-- Settles O31: read-delay is a register write, the other two each write their timer, and the sound follows
`ST`. -/
theorem timerInstructions : Obligations.TimerInstructions := fun s x =>
  ⟨writesOnly_setReg s x s.dt, rfl, s.setSound (s.reg x), rfl, rfl, State.soundActive_iff _⟩

/-! ### Waiting for a key -/

/-- Settles O32: the notification is armed by `MODE`, and the registers and `PC` are not touched. -/
theorem waitKeyPauses : Obligations.WaitKeyPauses := fun s x =>
  ⟨(s.awaitKey x).setEnv s.env.armKeyWait, rfl, rfl, rfl, fun _ => rfl, rfl⟩

end Sys2Proof.Machine

/-!
PROOFS of the family `60_exceptions.md`. First each unit of a step, said once as the state it answers; then what
the host's log can gain in a step; last the simulation of the algorithm of `cycle()` by the steps, over boundaries
at which no key event is due.
-/

namespace Sys2Proof.Machine

/-! ### Error codes and the Display's contract -/

/-- Settles O58: the codes are numbers written out. -/
theorem errorCodes : Obligations.ErrorCodes := by
  unfold Obligations.ErrorCodes
  refine ⟨rfl, rfl, rfl, rfl, ?causes, fun c e => ?answer⟩
  case causes =>
    rintro (_ | _ | _) (_ | _ | _) ⟨⟩ <;> rfl
  case answer =>
    cases e
    cases c <;> decide

/-- A request that means a pixel toggles it (rule R216). -/
theorem Display.pixels_toggle_of_pixelAt {d : Display} {x y p : Nat} (pixel : d.pixelAt x y = some p) :
    (d.toggle x y).pixels = togglePixel p d.pixels := by simp only [toggle, pixel]

/-- A request that means no pixel has no effect (rule R216). -/
theorem Display.toggle_of_noPixel {d : Display} {x y : Nat} (noPixel : d.pixelAt x y = none) :
    d.toggle x y = d := by simp only [toggle, noPixel]

/-- A request answers true exactly when it means a pixel that is on (rule R216). -/
theorem Display.collides_iff (d : Display) (x y : Nat) :
    d.collides x y = true ↔ ∃ p, d.pixelAt x y = some p ∧ p ∈ d.pixels := by
  unfold collides
  split <;> simp_all

/-- What a request leaves on in a canonical bitmap (rule R216). -/
theorem Display.mem_toggle {d : Display} (wf : d.wf) (x y q : Nat) :
    q ∈ (d.toggle x y).pixels ↔ if d.pixelAt x y = some q then q ∉ d.pixels else q ∈ d.pixels := by
  obtain ⟨rising, -⟩ := wf
  cases pixel : d.pixelAt x y with
  | none => simp [toggle_of_noPixel pixel]
  | some p =>
    rw [pixels_toggle_of_pixelAt pixel, mem_togglePixel p q d.pixels rising]
    simp only [Option.some.injEq, eq_comm]

/-- Settles O28: a pixel that the request means and that was on is off afterwards. -/
theorem setPixelTogglesOnePixel : Obligations.SetPixelTogglesOnePixel := by
  intro d x y q wf
  refine ⟨Display.mem_toggle wf x y q, (d.collides_iff x y).trans ?_, Display.pixelAt_of_lt⟩
  refine exists_congr fun p => and_congr_right fun pixel => ?_
  simp [Display.mem_toggle wf, pixel]

/-! ### The units of a step -/

/-- The resume writes `V[WAIT_REG]` where a key is awaited, and no other register (rule R199). -/
theorem State.reg_resume (s : State) (k : Byte) (r : RegIdx) :
    (s.resume k).reg r = if s.mode = .awaitingKey ∧ r = s.waitReg then k else s.reg r := by
  unfold State.resume
  split
  · rename_i awaiting
    refine (s.reg_setReg s.waitReg r k).trans ?_
    simp only [awaiting, true_and, eq_comm]
  · simp only [*, false_and, if_false]

/-- The resume changes registers and `MODE` only (rules R199, R201). -/
theorem State.resume_frame (s : State) (k : Byte) : s.resume k = { s with
    v := (s.resume k).v, mode := if s.mode = .awaitingKey then .running else s.mode } := by
  rw [← s.resume_mode k]
  unfold State.resume
  split <;> rfl

/-- The resume does not see the collaborators (rule R199). -/
theorem State.resume_setEnv (s : State) (e : Env) (k : Byte) :
    (s.setEnv e).resume k = (s.resume k).setEnv e := by
  rw [State.resume_frame, State.resume_v, s.resume_frame, s.resume_v]
  rfl

/-- The step that is a key event: the resume, the boundary passed, the event logged (rules R199, R206). -/
theorem step_eq_resume {s : State} {k : Byte} (due : s.keyEventDue = some k) :
    step s = .next ((s.resume k).setEnv { s.env with
      turns := s.env.turns.tail, draws := s.passBoundary.env.draws
      ports := s.env.ports ++ [.keyEvent k] }) := by
  rw [step_of_keyEvent s k due, State.keyEvent, State.resume_setEnv, State.passBoundary_eq_setEnv,
    State.resume_setEnv, State.passBoundary_frame]
  rfl

/-- Settles O33: the step is the resume on the registers and `MODE`. -/
theorem keyEventResumes : Obligations.KeyEventResumes := by
  intro s k due
  refine ⟨(s.resume k).v, s.env.turns.tail, s.passBoundary.env.draws, ?_, s.reg_resume k⟩
  rw [step_eq_resume due, State.resume_frame]
  rfl

section
variable {s : State} (quiet : s.keyEventDue = none)
include quiet

/-- A loop check that holds is an instruction step (rule R205). -/
theorem step_of_iteration {left : Nat} (running : s.mode = .running) (loop : s.ctl = .loop (left + 1)) :
    step s = (s.passBoundary.setCtl (.loop left)).instructionStep := by
  rw [step_of_unit s quiet]
  simp only [State.coreUnit, State.passBoundary_ctl, loop, State.loopUnit, State.passBoundary_mode, running,
    if_true, State.iterate]

/-- A loop check that fails ends the loop (rules R205, R206). -/
theorem step_of_loopEnd {left : Nat} (loop : s.ctl = .loop left) (ended : s.mode ≠ .running ∨ left = 0) :
    step s = .next (s.passBoundary.setCtl .tick) := by
  rw [step_of_unit s quiet]
  simp only [State.coreUnit, State.passBoundary_ctl, loop]
  cases left with
  | zero => rfl
  | succ left =>
    have stopped : s.passBoundary.mode ≠ .running := by simpa using ended
    exact if_neg stopped

/-- The step that is the tick unit (rule R205). -/
theorem step_of_tick (ctl : s.ctl = .tick) : step s = .next s.passBoundary.tickUnit := by
  rw [step_of_unit s quiet]
  simp only [State.coreUnit, State.passBoundary_ctl, ctl]

/-- The step that is the render unit (rule R205). -/
theorem step_of_render (ctl : s.ctl = .render) : step s = .next s.passBoundary.renderUnit := by
  rw [step_of_unit s quiet]
  simp only [State.coreUnit, State.passBoundary_ctl, ctl]

end

/-- Passing a boundary uses up no free value while no key is awaited (rule R201). -/
theorem State.passBoundary_draws {s : State} (notAwaiting : s.mode ≠ .awaitingKey) :
    s.passBoundary.env.draws = s.env.draws := by rw [s.passBoundary_not_awaiting notAwaiting]

/-- Settles O56: the failing loop check moves the controller past the boundary. -/
theorem loopCheckFails : Obligations.LoopCheckFails := by
  intro s left loop ended quiet
  refine ⟨s.passBoundary.env.draws, ?_, State.passBoundary_draws⟩
  rw [step_of_loopEnd quiet loop ended, State.passBoundary_frame]
  rfl

/-- Settles O55: the host's turn is the start of a cycle in both cases. -/
theorem cycleBegins : Obligations.CycleBegins := by
  intro s between quiet request
  refine ⟨s.passBoundary.env.draws, ?_, State.passBoundary_draws⟩
  obtain noRequest | ⟨rs, request⟩ := request
  · rw [step_of_noRequest between quiet noRequest, State.passBoundary_frame, noRequest, List.tail_nil,
      ← noRequest]
    rfl
  · rw [step_of_request between quiet request, request]
    rfl

/-- The decrement of a timer, as numbers (rule R203). -/
theorem toNat_countDown (t : Byte) : (countDown t).toNat = t.toNat - 1 := by
  unfold countDown
  split
  · bv_omega
  · omega

/-- The tick unit while Running (rule R205). -/
theorem State.tickUnit_of_running {s : State} (running : s.mode = .running) :
    s.tickUnit = s.tickTimers.setCtl .render := by rw [tickUnit, if_pos running]

/-- The tick unit in any other mode (rule R205). -/
theorem State.tickUnit_of_stopped {s : State} (stopped : s.mode ≠ .running) :
    s.tickUnit = s.setCtl .render := by rw [tickUnit, if_neg stopped]

/-- Settles O36: the tick unit, in the two cases of its check. -/
theorem tickDecrementsTimers : Obligations.TickDecrementsTimers := by
  intro s ctl quiet
  rw [step_of_tick quiet ctl]
  by_cases running : s.mode = .running
  · refine ⟨countDown s.dt, countDown s.st, s.env.turns.tail, s.passBoundary.env.draws, ?_,
      fun _ => ⟨toNat_countDown _, toNat_countDown _⟩, fun stopped => absurd running stopped⟩
    rw [State.tickUnit_of_running (s.passBoundary_mode.trans running), State.passBoundary_frame]
    rfl
  · refine ⟨s.dt, s.st, s.env.turns.tail, s.passBoundary.env.draws, ?_,
      fun holds => absurd holds running, fun _ => ⟨rfl, rfl⟩⟩
    rw [State.tickUnit_of_stopped (s.passBoundary_mode.symm ▸ running), State.passBoundary_frame]
    rfl

/-- Two bytes are illegal exactly when their word is. -/
theorem decodeWord_eq_none_of_error {a b : Byte} {e : DecodeError} (h : decode [a, b] = .error e) :
    decodeWord (wordOfBytes a b) = none := by
  simp only [decode] at h
  split at h
  · cases h
  · assumption

/-- The report of an illegal word, whole state (rules R191, R209). -/
theorem State.unknownOpcode_frame (s : State) (w : Word) (a : Addr) : s.unknownOpcode w a = { s with
    fault := some ⟨.unknownOpcode, w, a⟩
    mode := if s.cfg.policy = .halt then .halted else s.mode } := by
  rw [← s.unknownOpcode_mode w a]
  unfold unknownOpcode
  split <;> rfl

/-- The step at an illegal word (rules R84, R191, R205). -/
theorem step_of_undecoded {s : State} {left : Nat} (running : s.mode = .running)
    (loop : s.ctl = .loop (left + 1)) (quiet : s.keyEventDue = none)
    (undecoded : decodeWord s.fetchWord = none) :
    step s = .next ((s.fetched { s.env with turns := s.env.turns.tail } left).unknownOpcode
      s.fetchWord s.pc) := by
  have notAwaiting : s.mode ≠ .awaitingKey := by simp [running]
  rw [step_of_iteration quiet running loop, s.passBoundary_not_awaiting notAwaiting]
  exact State.instructionStep_of_illegal _ undecoded

/-- Settles O35: the instruction step on an illegal word is its report on the advanced state. -/
theorem illegalWordIsReported : Obligations.IllegalWordIsReported := by
  intro s left running loop quiet illegal
  have undecoded : decodeWord s.fetchWord = none := decodeWord_eq_none_of_error illegal
  rw [step_of_undecoded running loop quiet undecoded, State.unknownOpcode_frame, ← running]
  rfl

/-- Settles O57: after the event the core is Running, and each of the three places is one known unit. -/
theorem keyEventPlaceDecidesCycle : Obligations.KeyEventPlaceDecidesCycle := by
  intro s k ts awaiting turns
  have event := step_eq_resume (s.keyEventDue_cons (some k) (none :: ts) turns)
  rw [turns, List.tail_cons] at event
  refine ⟨_, event, ?_⟩
  generalize hu : (s.resume k).setEnv _ = u
  have running : u.mode = .running := by simp [← hu, awaiting]
  have turns' : u.env.turns = none :: ts := by simp [← hu]
  have quiet : u.keyEventDue = none := u.keyEventDue_cons none ts turns'
  have ctl : u.ctl = s.ctl := by simp [← hu]
  have pc : u.pc = s.pc := by simp [← hu]
  have mem : u.mem = s.mem := by simp [← hu]
  refine ⟨running, ?_, pc, ctl, fun left i loop decoded => ?_, fun tick => ?_, fun render => ?_⟩
  · rw [← hu]
    refine (s.reg_resume k s.waitReg).trans (if_pos ⟨awaiting, rfl⟩)
  · have word : u.fetchWord = s.fetchWord := by simp [State.fetchWord, ← hu]
    rw [step_of_decodeWord running (ctl.trans loop) quiet (word.symm ▸ decoded), turns', ← pc]
    rfl
  · obtain ⟨dt', st', ts', d, stepped, ticks, -⟩ := tickDecrementsTimers u (ctl.trans tick) quiet
    obtain ⟨hdt, hst⟩ := ticks running
    refine ⟨_, stepped, ?_, ?_, pc, rfl, mem, rfl⟩
    · simpa [← hu] using hdt
    · simpa [← hu] using hst
  · refine ⟨_, step_of_render quiet (ctl.trans render), ?_⟩
    simp [State.renderUnit, ← hu]

/-- Settles O39: of the steps from a Halted state only the reset request touches the core, and in the boot phase,
where an image could be loaded, the core is Running. -/
theorem haltedIsSticky : Obligations.HaltedIsSticky := by
  intro s t inv halted h noReset
  obtain ⟨-, -, -, -, -, entry⟩ := inv
  obtain ⟨e, -, hcase⟩ := step_cases h
  have notRunning : s.mode ≠ .running := by simp [halted]
  cases hcase with
  | resetCore rs _ request => exact absurd request (noReset rs)
  | imageLoaded _ window => exact absurd ((State.readyAtEntry_iff s).mp entry false window).1 notRunning
  | instruction _ _ _ running | illegal _ _ running => exact absurd running notRunning
  | keyEvent k =>
    have ignored : (s.setEnv e).resume k = s.setEnv e := if_neg (by simp [halted])
    rw [ignored]
    rfl
  | tick =>
    rw [State.tickUnit_of_stopped (s := s.setEnv e) notRunning]
    rfl
  | _ => rfl

/-! ### What an instruction does on the ports -/

/-- The transactions one instruction can start, by what they leave of the collaborators' side (rules R41 to
R43). -/
inductive PortUse (e : Env) : Env → Prop where
  | silent : PortUse e e
  | random : PortUse e e.tookRand
  | query (k : Byte) : PortUse e (e.tookKey k)
  | clear : PortUse e e.clearDisplay
  | draw (ps : List (Coord × Coord)) : PortUse e (e.setPixels ps)
  | arm : PortUse e e.armKeyWait

/-- Every instruction that answers a next state does one of these on the ports. -/
theorem portUse_of_exec {i : Instr} {s t : State} (h : exec i s = .next t) : PortUse s.env t.env := by
  cases i with
  | random => cases h; exact .random
  | clear => cases h; exact .clear
  | draw => cases h; exact .draw _
  | waitKey => cases h; exact .arm
  | skipKeyPressed | skipKeyNotPressed =>
    cases h
    rw [State.skipIf_env]
    exact .query _
  | skipEqImm | skipNeImm | skipEqReg | skipNeReg =>
    cases h
    rw [State.skipIf_env]
    exact .silent
  | storeRegs =>
    cases h
    rw [State.storeRange_env]
    exact .silent
  | loadRegs =>
    cases h
    rw [State.loadRange_env]
    exact .silent
  | ret =>
    by_cases entry : 0 < s.sp.val
    · cases (exec_ret_of_entry entry).symm.trans h; exact .silent
    · cases (exec_ret_of_empty entry).symm.trans h; exact .silent
  | call n =>
    by_cases room : s.sp.val < 16
    · cases (exec_call_of_room n room).symm.trans h; exact .silent
    · cases (exec_call_of_full n room).symm.trans h; exact .silent
  | _ => cases h; exact .silent

/-- Every instruction step that answers a next state does so too: an illegal word starts no transaction. -/
theorem portUse_of_instructionStep {s t : State} (h : s.instructionStep = .next t) : PortUse s.env t.env := by
  cases decoded : decodeWord s.fetchWord with
  | some i => exact portUse_of_exec (s := s.advance) ((s.instructionStep_of_decode i decoded).symm.trans h)
  | none =>
    cases (s.instructionStep_of_illegal decoded).symm.trans h
    rw [State.unknownOpcode_env]
    exact .silent

/-- An instruction step moves neither the controller nor a parameter (rules R36, R205). -/
theorem State.instructionStep_keeps {s t : State} (h : s.instructionStep = .next t) :
    t.ctl = s.ctl ∧ t.cfg = s.cfg := by
  cases decoded : decodeWord s.fetchWord with
  | some i =>
    have ran : exec i s.advance = .next t := (s.instructionStep_of_decode i decoded).symm.trans h
    have ctl := exec_ctl ran
    have cfg := exec_cfg ran
    exact ⟨ctl, cfg⟩
  | none =>
    cases (s.instructionStep_of_illegal decoded).symm.trans h
    exact ⟨State.unknownOpcode_ctl .., State.unknownOpcode_cfg ..⟩

section
variable {e e' : Env} (use : PortUse e e')
include use

/-- No transaction uses up a scripted turn (rule R206). -/
theorem PortUse.turns : e'.turns = e.turns := by cases use <;> simp

/-- No transaction takes from the host's queue (rule R238). -/
theorem PortUse.requests : e'.requests = e.requests := by cases use <;> simp

end

/-- Settles O46: the controller and the parameters are the step's, and no transaction takes from the host's queue
or the scripted turns. -/
theorem everyInstructionCompletes : Obligations.EveryInstructionCompletes := by
  intro i s
  obtain ⟨t, h⟩ := exec_completes i s
  have use := portUse_of_exec h
  exact ⟨t, h, exec_ctl h, exec_cfg h, use.turns, use.requests⟩

/-! ### The log between renders -/

/-- The log of `e'` is that of `e` with transactions added, none of them a `DispRender()`. -/
def Env.LogsNoRender (e e' : Env) : Prop :=
  ∃ l : List PortEvent, e'.ports = e.ports ++ l ∧ .dispRender ∉ l

theorem Env.LogsNoRender.of_eq {e e' : Env} (same : e'.ports = e.ports) : e.LogsNoRender e' :=
  ⟨[], by simp [same], by simp⟩

theorem Env.LogsNoRender.of_append {e e' : Env} {p : PortEvent} (logged : e'.ports = e.ports ++ [p])
    (other : p ≠ .dispRender) : e.LogsNoRender e' :=
  ⟨[p], logged, by simpa using other.symm⟩

theorem Env.LogsNoRender.trans {e e' e'' : Env} (first : e.LogsNoRender e') (second : e'.LogsNoRender e'') :
    e.LogsNoRender e'' := by
  obtain ⟨l, hl, noRender⟩ := first
  obtain ⟨l', hl', noRender'⟩ := second
  exact ⟨l ++ l', by rw [hl', hl, List.append_assoc], by simp [noRender, noRender']⟩

/-- A sequence of `DispSetPixel` requests logs nothing else. -/
theorem Env.logsNoRender_setPixels (ps : List (Coord × Coord)) : ∀ e : Env, e.LogsNoRender (e.setPixels ps) := by
  induction ps with
  | nil => exact fun e => .of_eq rfl
  | cons p ps ih => exact fun e => .trans (.of_append (e' := e.setPixel p) rfl nofun) (ih _)

/-- No instruction renders (rule R205). -/
theorem PortUse.logsNoRender {e e' : Env} (use : PortUse e e') : e.LogsNoRender e' := by
  cases use with
  | silent => exact .of_eq rfl
  | draw ps => exact e.logsNoRender_setPixels ps
  | random | query | clear | arm => exact .of_append rfl nofun

/-! ### The algorithm of `cycle()` -/

/-- The loop answers a next state; it does not render and uses up no scripted turn (rule R205). -/
theorem State.cycleLoop_completes (fuel : Nat) : ∀ (count : Nat) (s : State), ∃ u,
    State.cycleLoop fuel count s = .next u ∧ s.env.LogsNoRender u.env ∧ u.env.turns = s.env.turns := by
  induction fuel with
  | zero => exact fun count s => ⟨s, rfl, .of_eq rfl, rfl⟩
  | succ fuel ih =>
    intro count s
    rw [cycleLoop]
    split
    · obtain ⟨t, ht⟩ := s.instructionStep_completes
      have use := portUse_of_instructionStep ht
      obtain ⟨u, hu, log, turns⟩ := ih (count + 1) t
      rw [ht]
      exact ⟨u, hu, use.logsNoRender.trans log, turns.trans use.turns⟩
    · exact ⟨s, rfl, .of_eq rfl, rfl⟩

/-- Where the core is not Running the loop is over at once (rules R207, R208). -/
theorem State.cycleLoop_of_stopped {s : State} (stopped : s.mode ≠ .running) (fuel count : Nat) :
    State.cycleLoop fuel count s = .next s := by
  cases fuel with
  | zero => rfl
  | succ fuel => exact if_neg fun check => stopped check.1

/-- The loop's next iteration (rule R205). -/
theorem State.cycleLoop_of_running {s t : State} {fuel count : Nat} (running : s.mode = .running)
    (below : count < s.cfg.speed) (h : s.instructionStep = .next t) :
    State.cycleLoop (fuel + 1) count s = State.cycleLoop fuel (count + 1) t := by
  rw [cycleLoop, if_pos ⟨running, below⟩, h]

/-- The whole cycle is its loop and then its tail (rule R205). -/
theorem State.wholeCycle_of_loop {s u : State} (h : State.cycleLoop s.cfg.speed 0 s = .next u) :
    s.wholeCycle = .next u.cycleTail := by rw [wholeCycle, h]

/-- The tail changes the timers, the controller and the log, which gains the render and the answer (rule R205). -/
theorem State.cycleTail_frame (s : State) : s.cycleTail = { s with
    dt := s.cycleTail.dt, st := s.cycleTail.st, ctl := .idle
    env := { s.env with ports := s.env.ports ++ [.dispRender, .cycleDone s.fault] } } := by
  unfold cycleTail
  split <;> rfl

/-- Where the core is not Running the tail leaves the timers too (rules R207, R208). -/
theorem State.cycleTail_of_stopped {s : State} (stopped : s.mode ≠ .running) : s.cycleTail = { s with
    ctl := .idle
    env := { s.env with ports := s.env.ports ++ [.dispRender, .cycleDone s.fault] } } := by
  rw [cycleTail, if_neg stopped]

/-- The tail is the tick unit and then the render unit (rule R205). -/
theorem State.renderUnit_tickUnit (s : State) : s.tickUnit.renderUnit = s.cycleTail := by
  by_cases running : s.mode = .running
  · rw [tickUnit_of_running running, cycleTail, if_pos running]
    simp [renderUnit, setEnv, setCtl, Env.render, Env.record]
  · rw [tickUnit_of_stopped running, cycleTail_of_stopped running]
    simp [renderUnit, setEnv, setCtl, Env.render, Env.record]

/-! ### Which step renders -/

/-- An image in the window is answered in the log, and the boot phase goes on (rule R71). -/
theorem State.loadImage_logsNoRender {s t : State} {bytes : List Byte} (h : s.loadImage bytes = .next t)
    (window : s.ctl = .ready false) : s.env.LogsNoRender t.env ∧ t.ctl ≠ .idle := by
  by_cases fits : bytes.length ≤ 3584
  · cases (State.loadImage_of_fits window fits).symm.trans h
    exact ⟨.of_append rfl nofun, nofun⟩
  · cases (State.loadImage_of_tooLarge window (not_le.mp fits)).symm.trans h
    exact ⟨.of_append rfl nofun, by simp [window]⟩

/-- The tick leaves the collaborators' side. -/
theorem State.tickUnit_env (s : State) : s.tickUnit.env = s.env := by
  unfold tickUnit
  split <;> rfl

/-- A step is the render unit, with no key event due, or it logs no render and ends no cycle (rules R205,
R206). -/
theorem step_renders_or_not {s t : State} (h : step s = .next t) :
    (s.ctl = .render ∧ s.keyEventDue = none ∧ t = s.passBoundary.renderUnit) ∨
    (s.env.LogsNoRender t.env ∧ (t.ctl = .idle → s.ctl = .idle)) := by
  cases due : s.keyEventDue with
  | some k =>
    cases (step_eq_resume due).symm.trans h
    refine .inr ⟨.of_append rfl nofun, fun idle => (s.resume_ctl k).symm.trans idle⟩
  | none =>
    have passed : s.env.LogsNoRender s.passBoundary.env := .of_eq s.passBoundary_ports
    rw [step_of_unit s due] at h
    obtain ⟨-, h⟩ | ⟨left, hc, -, h⟩ | ⟨left, hc, -, rfl⟩ | ⟨hc, rfl⟩ | ⟨hc, rfl⟩ :=
      State.coreUnit_cases h
    · obtain ⟨-, rfl⟩ | ⟨r, rs, -, ⟨-, rfl⟩ | ⟨-, rfl⟩ | ⟨bytes, -, window, h⟩⟩ := State.hostUnit_cases h
      · exact .inr ⟨passed, nofun⟩
      · exact .inr ⟨passed.trans (.of_eq rfl), nofun⟩
      · exact .inr ⟨passed.trans (.of_eq rfl), nofun⟩
      · obtain ⟨log, busy⟩ := State.loadImage_logsNoRender h window
        exact .inr ⟨passed.trans log, fun idle => absurd idle busy⟩
    · have use := portUse_of_instructionStep h
      have ctl : t.ctl = .loop left := (State.instructionStep_keeps h).1
      exact .inr ⟨passed.trans use.logsNoRender, by simp [ctl]⟩
    · exact .inr ⟨passed, nofun⟩
    · exact .inr ⟨passed.trans (.of_eq (congrArg Env.ports (State.tickUnit_env _))), nofun⟩
    · exact .inl ⟨s.passBoundary_ctl.symm.trans hc, rfl, rfl⟩

/-- Settles O41: the loop and every step but the render unit log no render. -/
theorem cycleRendersOnceLast : Obligations.CycleRendersOnceLast := by
  constructor
  · intro s
    obtain ⟨u, hu, ⟨l, hl, noRender⟩, -⟩ := State.cycleLoop_completes s.cfg.speed 0 s
    refine ⟨u, u.cycleTail, l, hu, State.wholeCycle_of_loop hu, noRender, hl, ?_⟩
    rw [u.cycleTail_frame, ← hl]
    simp
  · intro s t h
    obtain ⟨ctl, quiet, rfl⟩ | ⟨⟨l, hl, noRender⟩, ends⟩ := step_renders_or_not h
    · refine ⟨[.dispRender, .cycleDone s.fault], ?_, fun _ => ⟨ctl, quiet, rfl, rfl, ?_, ?_⟩, fun _ _ => ?_⟩
      · simp [State.renderUnit]
      · simp [State.renderUnit]
      · rw [s.passBoundary_frame]
        rfl
      · simp
    · exact ⟨l, hl, fun render => absurd render noRender, fun idle busy => absurd (ends idle) busy⟩

/-! ### Steps over undisturbed boundaries -/

/-- No key event is due at the coming `n` boundaries in mode `m`, where the turns to come are `ts`: they are
scripted so, or nothing is scripted and no key is awaited (rule R201). -/
def Undisturbed (m : Mode) (ts : List (Option Byte)) (n : Nat) : Prop :=
  (∀ j < n, ts[j]? = some none) ∨ (ts = [] ∧ m ≠ .awaitingKey)

theorem Undisturbed.tail {m : Mode} {ts : List (Option Byte)} {n : Nat} (h : Undisturbed m ts (n + 1)) :
    Undisturbed m ts.tail n := by
  obtain scripted | ⟨rfl, notAwaiting⟩ := h
  · exact .inl fun j hj => by simpa using scripted (j + 1) (by omega)
  · exact .inr ⟨rfl, notAwaiting⟩

/-- Boundaries undisturbed in some mode are undisturbed while Running. -/
theorem Undisturbed.running {m : Mode} {ts : List (Option Byte)} {n : Nat} (h : Undisturbed m ts n) :
    Undisturbed .running ts n := h.imp_right fun ⟨unscripted, _⟩ => ⟨unscripted, nofun⟩

theorem Undisturbed.mono {m : Mode} {ts : List (Option Byte)} {n k : Nat} (h : Undisturbed m ts n)
    (hk : k ≤ n) : Undisturbed m ts k :=
  h.imp_left fun scripted j hj => scripted j (hj.trans_le hk)

/-- The state with the controller at `p` and the turns `ts` to come: all in which a state of the algorithm and one
of the steps that carry it out differ. -/
def State.inPhase (s : State) (p : Phase) (ts : List (Option Byte)) : State :=
  { s with ctl := p, env := { s.env with turns := ts } }

section
variable {s : State} {p : Phase} {ts : List (Option Byte)} {n : Nat}

/-- The next turn of undisturbed boundaries: scripted so, or not scripted and no key awaited. -/
theorem Undisturbed.next {m : Mode} (h : Undisturbed m ts (n + 1)) :
    (∃ ts', ts = none :: ts') ∨ (ts = [] ∧ m ≠ .awaitingKey) :=
  h.imp_left fun scripted => List.head?_eq_some_iff.mp (List.head?_eq_getElem? .. ▸ scripted 0 n.succ_pos)

theorem State.keyEventDue_inPhase (h : Undisturbed s.mode ts (n + 1)) : (s.inPhase p ts).keyEventDue = none := by
  obtain ⟨ts', rfl⟩ | ⟨rfl, notAwaiting⟩ := h.next
  · rfl
  · exact State.keyEventDue_quiet _ rfl notAwaiting

theorem State.passBoundary_inPhase (h : Undisturbed s.mode ts (n + 1)) :
    (s.inPhase p ts).passBoundary = s.inPhase p ts.tail := by
  obtain ⟨ts', rfl⟩ | ⟨rfl, notAwaiting⟩ := h.next
  · rfl
  · exact (s.inPhase p []).passBoundary_not_awaiting notAwaiting

end

/-! ### Instructions do not see the phase -/

/-- A skip does not see the phase or the turns to come. -/
theorem State.skipIf_inPhase (s : State) (p : Phase) (ts : List (Option Byte)) (c : Bool) :
    (s.inPhase p ts).skipIf c = (s.skipIf c).inPhase p ts := by cases c <;> rfl

/-- Storing registers does not see the phase or the turns to come. -/
theorem State.storeRange_inPhase (s : State) (p : Phase) (ts : List (Option Byte)) (n : Nat) :
    (s.inPhase p ts).storeRange n = (s.storeRange n).inPhase p ts := by
  induction n with
  | zero => rfl
  | succ n ih => rw [State.storeRange, ih]; rfl

/-- Loading registers does not see the phase or the turns to come. -/
theorem State.loadRange_inPhase (s : State) (p : Phase) (ts : List (Option Byte)) (n : Nat) :
    (s.inPhase p ts).loadRange n = (s.loadRange n).inPhase p ts := by
  induction n with
  | zero => rfl
  | succ n ih => rw [State.loadRange, ih]; rfl

/-- No instruction sees the phase or the turns to come. -/
theorem exec_inPhase {i : Instr} {s t : State} (h : exec i s = .next t) (p : Phase) (ts : List (Option Byte)) :
    exec i (s.inPhase p ts) = .next (t.inPhase p ts) := by
  cases i with
  | ret =>
    by_cases entry : 0 < s.sp.val
    · cases (exec_ret_of_entry entry).symm.trans h
      exact exec_ret_of_entry (s := s.inPhase p ts) entry
    · cases (exec_ret_of_empty entry).symm.trans h
      exact exec_ret_of_empty (s := s.inPhase p ts) entry
  | call n =>
    by_cases room : s.sp.val < 16
    · cases (exec_call_of_room n room).symm.trans h
      exact exec_call_of_room (s := s.inPhase p ts) n room
    · cases (exec_call_of_full n room).symm.trans h
      exact exec_call_of_full (s := s.inPhase p ts) n room
  | skipEqImm | skipNeImm | skipEqReg | skipNeReg =>
    cases h
    exact congrArg Host.Outcome.next (s.skipIf_inPhase p ts _)
  | skipKeyPressed x | skipKeyNotPressed x =>
    cases h
    exact congrArg Host.Outcome.next ((s.setEnv (s.env.tookKey (s.reg x))).skipIf_inPhase p ts _)
  | storeRegs x => cases h; exact congrArg Host.Outcome.next (s.storeRange_inPhase p ts _)
  | loadRegs x => cases h; exact congrArg Host.Outcome.next (s.loadRange_inPhase p ts _)
  | draw x y n =>
    cases (exec_draw s x y n).symm.trans h
    exact exec_draw (s.inPhase p ts) x y n
  | _ => cases h; rfl

/-- An instruction step does not see the phase or the turns to come. -/
theorem State.instructionStep_inPhase {s t : State} (h : s.instructionStep = .next t) (p : Phase)
    (ts : List (Option Byte)) : (s.inPhase p ts).instructionStep = .next (t.inPhase p ts) := by
  cases decoded : decodeWord s.fetchWord with
  | some i =>
    have ran : exec i s.advance = .next t := (s.instructionStep_of_decode i decoded).symm.trans h
    exact ((s.inPhase p ts).instructionStep_of_decode i decoded).trans (exec_inPhase ran p ts)
  | none =>
    cases (s.instructionStep_of_illegal decoded).symm.trans h
    refine ((s.inPhase p ts).instructionStep_of_illegal decoded).trans ?_
    rw [State.unknownOpcode_frame, State.unknownOpcode_frame]
    rfl

/-! ### The steps carry out the algorithm -/

/-- A run begins with its first step, for any machine. -/
theorem coreRun_succ {M : Host.Core} {s t : M.State} (h : M.step s = .next t) (n : Nat) :
    M.run (n + 1) s = M.run n t := by rw [Host.Core.run, h]

/-- A run of the machine begins with its first step. -/
theorem run_succ {s t : State} (h : step s = .next t) (n : Nat) :
    Sys2Proof.core.run (n + 1) s = Sys2Proof.core.run n t := coreRun_succ (M := Sys2Proof.core) h n

/-- The tick unit does not see the phase or the turns to come. -/
theorem State.tickUnit_inPhase (s : State) {p : Phase} {ts : List (Option Byte)} :
    (s.inPhase p ts).tickUnit = s.tickUnit.inPhase .render ts := by
  by_cases running : s.mode = .running
  · rw [tickUnit_of_running running, tickUnit_of_running (s := s.inPhase p ts) running]
    rfl
  · rw [tickUnit_of_stopped running, tickUnit_of_stopped (s := s.inPhase p ts) running]
    rfl

section
variable {s : State} {ts : List (Option Byte)} {n left : Nat}

/-- An iteration of the loop, step against algorithm (rule R205). -/
theorem step_inPhase_iteration {t : State} (quiet : Undisturbed s.mode ts (n + 1)) (running : s.mode = .running)
    (h : s.instructionStep = .next t) :
    step (s.inPhase (.loop (left + 1)) ts) = .next (t.inPhase (.loop left) ts.tail) := by
  rw [step_of_iteration (State.keyEventDue_inPhase quiet) running rfl, State.passBoundary_inPhase quiet]
  exact State.instructionStep_inPhase h (.loop left) ts.tail

/-- Where the loop is over, three steps are the tail of the algorithm: the failing check, the tick unit and the
render unit (rules R205, R206). -/
theorem run_cycleTail (quiet : Undisturbed s.mode ts 3) (ended : s.mode ≠ .running ∨ left = 0) :
    Sys2Proof.core.run 3 (s.inPhase (.loop left) ts) = .next (s.cycleTail.inPhase .idle (ts.drop 3)) := by
  have failed : step (s.inPhase (.loop left) ts) = .next (s.inPhase .tick ts.tail) := by
    rw [step_of_loopEnd (State.keyEventDue_inPhase quiet) rfl ended, State.passBoundary_inPhase quiet]
    rfl
  have ticked : step (s.inPhase .tick ts.tail) = .next (s.tickUnit.inPhase .render ts.tail.tail) := by
    rw [step_of_tick (State.keyEventDue_inPhase quiet.tail) rfl, State.passBoundary_inPhase quiet.tail]
    exact congrArg Host.Outcome.next s.tickUnit_inPhase
  have quiet' : Undisturbed s.tickUnit.mode ts.tail.tail 1 := s.tickUnit_mode ▸ quiet.tail.tail
  have rendered : step (s.tickUnit.inPhase .render ts.tail.tail) =
      .next (s.cycleTail.inPhase .idle ts.tail.tail.tail) := by
    rw [step_of_render (State.keyEventDue_inPhase quiet') rfl, State.passBoundary_inPhase quiet',
      ← s.renderUnit_tickUnit]
    rfl
  rw [run_succ failed, run_succ ticked, run_succ rendered]
  simp only [← List.drop_one, List.drop_drop]
  rfl

end

/-- The loop and the tail, from a state of the loop with `fuel` steps left (rule R205). -/
theorem run_cycleLoop (fuel : Nat) : ∀ (count : Nat) (s u : State) (ts : List (Option Byte)),
    count + fuel = s.cfg.speed → State.cycleLoop fuel count s = .next u →
    Undisturbed u.mode ts (fuel + 3) →
    ∃ n ≤ fuel + 3, Sys2Proof.core.run n (s.inPhase (.loop fuel) ts) =
      .next (u.cycleTail.inPhase .idle (ts.drop n)) := by
  induction fuel with
  | zero =>
    intro count s u ts _ h quiet
    cases h
    exact ⟨3, le_rfl, run_cycleTail quiet (.inr rfl)⟩
  | succ fuel ih =>
    intro count s u ts counted h quiet
    by_cases running : s.mode = .running
    · obtain ⟨t, ht⟩ := s.instructionStep_completes
      obtain ⟨-, cfg⟩ := State.instructionStep_keeps ht
      rw [State.cycleLoop_of_running running (by omega) ht] at h
      obtain ⟨n, hn, ran⟩ := ih (count + 1) t u ts.tail (by rw [cfg]; omega) h quiet.tail
      refine ⟨n + 1, by omega, ?_⟩
      rw [run_succ (step_inPhase_iteration (running ▸ quiet.running) running ht), ran, List.drop_tail]
    · cases (State.cycleLoop_of_stopped running _ _).symm.trans h
      exact ⟨3, by omega, run_cycleTail (quiet.mono (by omega)) (.inl running)⟩

/-- Between two cycles with nothing asked for, the first step begins a cycle (rule R205; log 18). -/
theorem step_of_undisturbed {s : State} {n : Nat} (between : s.ctl.betweenCycles = true)
    (noRequest : s.env.requests = []) (quiet : Undisturbed s.mode s.env.turns (n + 1)) :
    step s = .next (s.inPhase (.loop s.cfg.speed) s.env.turns.tail) := by
  have due : s.keyEventDue = none := State.keyEventDue_inPhase (p := s.ctl) quiet
  have passed : s.passBoundary = s.inPhase s.ctl s.env.turns.tail := State.passBoundary_inPhase (p := s.ctl) quiet
  rw [step_of_noRequest between due noRequest, passed]
  rfl

/-- From between two cycles, with nothing asked for and no key event due, the steps carry out the algorithm of
`cycle()` (rules R205, R206). -/
theorem run_wholeCycle {s t : State} (between : s.ctl.betweenCycles = true) (noRequest : s.env.requests = [])
    (whole : s.wholeCycle = .next t) (quiet : Undisturbed t.mode s.env.turns (s.cfg.speed + 4)) :
    ∃ n ≤ s.cfg.speed + 4, Sys2Proof.core.run n s = .next (t.inPhase .idle (s.env.turns.drop n)) := by
  obtain ⟨u, loop, -⟩ := State.cycleLoop_completes s.cfg.speed 0 s
  cases (State.wholeCycle_of_loop loop).symm.trans whole
  have quietEnd : Undisturbed u.mode s.env.turns (s.cfg.speed + 4) := by rwa [u.cycleTail_frame] at quiet
  have quietStart : Undisturbed s.mode s.env.turns (s.cfg.speed + 4) := by
    by_cases running : s.mode = .running
    · exact running ▸ quietEnd.running
    · cases (State.cycleLoop_of_stopped running _ _).symm.trans loop
      exact quietEnd
  obtain ⟨n, hn, ran⟩ := run_cycleLoop s.cfg.speed 0 s u s.env.turns.tail (by omega) loop quietEnd.tail
  refine ⟨n + 1, by omega, ?_⟩
  rw [run_succ (step_of_undisturbed between noRequest quietStart), ran, List.drop_tail]

/-- A whole cycle ends between two cycles and uses up no scripted turn (rule R205). -/
theorem State.wholeCycle_ends {s t : State} (whole : s.wholeCycle = .next t) :
    t.ctl = .idle ∧ t.env.turns = s.env.turns := by
  obtain ⟨u, loop, -, turns⟩ := State.cycleLoop_completes s.cfg.speed 0 s
  cases (State.wholeCycle_of_loop loop).symm.trans whole
  rw [u.cycleTail_frame]
  exact ⟨rfl, turns⟩

/-- Settles O40: the turns are scripted quiet, in every mode. -/
theorem stepsCarryOutCycle : Obligations.StepsCarryOutCycle := by
  intro s t between noRequest scripted whole
  obtain ⟨n, hn, ran⟩ := run_wholeCycle between noRequest whole (.inl scripted)
  obtain ⟨ctl, -⟩ := State.wholeCycle_ends whole
  exact ⟨n, hn, by rw [ran, ← ctl]; rfl⟩

/-- Settles O54: with nothing scripted no event is due, and there are no turns to use up. -/
theorem quietStepsCarryOutCycle : Obligations.QuietStepsCarryOutCycle := by
  intro s t between noRequest unscripted whole notAwaiting
  obtain ⟨n, hn, ran⟩ := run_wholeCycle between noRequest whole (.inr ⟨unscripted, notAwaiting⟩)
  obtain ⟨ctl, turns⟩ := State.wholeCycle_ends whole
  have used : s.env.turns.drop n = t.env.turns := by rw [turns, unscripted, List.drop_nil]
  exact ⟨n, hn, by rw [ran, ← ctl, used]; rfl⟩

/-- From between two cycles and not Running, the four steps of a cycle only render and answer (rules R207, R208). -/
theorem run_stoppedCycle {s : State} (stopped : s.mode ≠ .running) (idle : s.ctl = .idle)
    (noRequest : s.env.requests = []) (quiet : Undisturbed s.mode s.env.turns 4) :
    Sys2Proof.core.run 4 s = .next { s with env := { s.env with
      turns := s.env.turns.drop 4, ports := s.env.ports ++ [.dispRender, .cycleDone s.fault] } } := by
  rw [run_succ (step_of_undisturbed (by rw [idle]; rfl) noRequest quiet), run_cycleTail quiet.tail (.inl stopped),
    State.cycleTail_of_stopped stopped, List.drop_tail, ← idle]
  rfl

/-- Settles O37: the core is not Running, and the four turns are scripted quiet. -/
theorem awaitingCycleOnlyRenders : Obligations.AwaitingCycleOnlyRenders := by
  intro s ts awaiting idle noRequest turns
  have quiet : Undisturbed s.mode s.env.turns 4 := .inl fun j hj => by
    rw [turns]
    interval_cases j <;> rfl
  rw [run_stoppedCycle (by simp [awaiting]) idle noRequest quiet, turns]
  rfl

/-- Settles O38: the core is not Running, and awaits no key. -/
theorem haltedCycleOnlyRenders : Obligations.HaltedCycleOnlyRenders := by
  intro s halted idle noRequest unscripted
  have quiet : Undisturbed s.mode s.env.turns 4 := .inr ⟨unscripted, by simp [halted]⟩
  rw [run_stoppedCycle (by simp [halted]) idle noRequest quiet, unscripted, List.drop_nil, ← unscripted]

end Sys2Proof.Machine

/-!
PROOFS of the family `70_reset_and_hazards.md`. What `initialize()` leaves in the registers and the stack; then the
load and the start of the first cycle as one run, and the word fetched at its end.
-/

namespace Sys2Proof.Machine

/-- `initialize()` clears every register (rule R230, D8). -/
theorem State.reg_initialize (s : State) (r : RegIdx) : s.initialize.reg r = 0#8 :=
  Vector.getElem_replicate r.isLt

/-- `initialize()` clears every stack entry (rule R230, D8). -/
theorem State.stack_initialize (s : State) {k : Nat} (hk : k < 16) : s.initialize.stack[k] = 0#12 :=
  Vector.getElem_replicate hk

/-- Settles O42: the step is `initialize()` on the state with the request taken up. -/
theorem initializeResetsCore : Obligations.InitializeResetsCore := by
  intro s rs between quiet request
  exact ⟨_, step_of_request between quiet request, State.reg_initialize _, rfl, rfl, rfl,
    fun _ => State.stack_initialize _, rfl, rfl, rfl, rfl, rfl, rfl, rfl, State.readByte_initialize _,
    rfl, rfl, rfl, rfl, rfl, rfl⟩

/-- The state with an image loaded and answered `ok`, and no request of the host left (rule R71). -/
def State.afterLoad (s : State) (bytes : List Byte) : State :=
  { s with
    mem := s.mem.writeBytes s.cfg.fontSet Config.programBase bytes
    ctl := .ready true
    env := { s.env with requests := [], ports := s.env.ports ++ [.loadOk] } }

section
variable {s : State} {bytes : List Byte} (window : s.ctl = .ready false) (running : s.mode = .running)
  (unscripted : s.env.turns = []) (request : s.env.requests = [.loadImage bytes]) (fits : bytes.length ≤ 3584)
include window running unscripted request fits

/-- A step that takes up the host's last request, to load an image that fits, loads it (rule R71). -/
theorem step_of_lastLoad : step s = .next (s.afterLoad bytes) := by
  have notAwaiting : s.mode ≠ .awaitingKey := by simp [running]
  rw [step_of_request (by rw [window]; rfl) (s.keyEventDue_quiet unscripted notAwaiting) request,
    State.passBoundary_draws notAwaiting, unscripted, List.tail_nil, ← unscripted]
  exact State.loadImage_of_fits window fits

/-- The next step begins the cycle, since the host asks for nothing else (rule R232; logs 18, 20). -/
theorem run_loadThenCycle :
    Sys2Proof.core.run 2 s = .next ((s.afterLoad bytes).inPhase (.loop s.cfg.speed) s.env.turns.tail) := by
  have quiet : Undisturbed s.mode s.env.turns 1 := .inr ⟨unscripted, by simp [running]⟩
  have begun : step (s.afterLoad bytes) = .next _ := step_of_undisturbed rfl rfl quiet
  rw [run_succ (step_of_lastLoad window running unscripted request fits), run_succ begun]
  rfl

end

/-- At the entry point, with an image of at least two bytes loaded, the word fetched is its first two bytes
(rules R63, R71). -/
theorem State.toNat_fetchWord_of_image {s : State} {m : Memory} {b0 b1 : Byte} {bs : List Byte}
    (fits : (b0 :: b1 :: bs).length ≤ 3584) (entry : s.pc = Config.programBase)
    (image : s.mem = m.writeBytes s.cfg.fontSet Config.programBase (b0 :: b1 :: bs)) :
    s.fetchWord.toNat = b0.toNat * 256 + b1.toNat := by
  have first : s.readByte s.pc = b0 := by
    rw [State.readByte, image, entry]
    exact Memory.read_writeBytes_image _ m fits (k := 0) (by simp)
  have second : s.readByte (s.pc + 1#12) = b1 := by
    rw [State.readByte, image, entry]
    exact Memory.read_writeBytes_image _ m fits (k := 1) (by simp)
  rw [State.toNat_fetchWord, first, second]

/-- Settles O45: after the load and the start of the cycle, `PC` is still at the image. -/
theorem bootFetchesImage : Obligations.BootFetchesImage := by
  intro speed b0 b1 bs fits
  exact ⟨_, run_loadThenCycle rfl rfl rfl rfl fits, rfl, rfl, rfl, rfl,
    State.toNat_fetchWord_of_image fits rfl rfl⟩

end Sys2Proof.Machine
